-- ==== Sys2Proof/Word.lean ====
section
/-! DEFINITION. The words of JRHD-CORE: the 16-bit ButtonWord (00_scope.md R6, WORD_W), the 11-bit
operation-select vector (30_encoding.md R100) and the 18-bit event word (30_encoding.md R104). -/

namespace Sys2Proof

/-- A ButtonWord: bit `i` is button position `i` (20_memory.md R72). -/
abbrev ButtonWord := BitVec 16

/-- An operation-select vector (30_encoding.md R100). -/
abbrev Osv := BitVec 11

/-- An event word of the sink port (30_encoding.md R104). -/
abbrev EventWord := BitVec 18

end Sys2Proof
end

