-- ==== Sys2Proof/Config.lean ====
section
/-! DEFINITION. What is fixed for an instance: the platform parameters (00_scope.md R6), the configuration
record CFG (10_state.md R21 to R29) with its defaults, and the one free value of the model, the inputs of a
tick for which no stimulus is pending (10_state.md R30, 93_implementation_defined.md M7, M8). -/

namespace Sys2Proof

/-- The OPEN platform parameters of 00_scope.md R6: arguments of the model. -/
structure Platform where
  /-- `TICKS_PER_MS`, model ticks per millisecond. -/
  ticksPerMs : Nat
  /-- `TU`, ticks per protocol time-unit. -/
  tu : Nat
deriving DecidableEq, Repr

/-- `MODE`, 10_state.md R22. -/
inductive Mode where
  | sync
  | async
deriving DecidableEq, Repr

/-- `START_EDGE`, 10_state.md R27. -/
inductive StartEdge where
  | falling
  | rising
deriving DecidableEq, Repr

/-- One map entry `MAP[p] = (idx, id)`, 10_state.md R24, with the reserved bits `MAPW_p[31:20]` that the
packed image of 30_encoding.md R106 gives it (0 where the record is not given as an image; log 14). -/
structure MapEntry where
  idx  : BitVec 4
  id   : BitVec 16
  rsvd : BitVec 12 := 0
deriving DecidableEq, Repr

/-- The configuration record CFG, 10_state.md R21 and R29. `rsvd0` is `CFG0[31:13]` and `rsvd2` is
`CFG2[31:16]` of the packed image (30_encoding.md R106; log 14). -/
structure Cfg where
  mode       : Mode
  width      : BitVec 5
  mapLen     : BitVec 5
  map        : Vector MapEntry 16
  pollPeriod : BitVec 32
  bitPeriod  : BitVec 16
  startEdge  : StartEdge
  handshake  : Bool
  rsvd0      : BitVec 19 := 0
  rsvd2      : BitVec 16 := 0
deriving DecidableEq, Repr

/-- The free value of the model: the input vector IV (30_encoding.md R105) of the tick with this number,
for a tick with no pending stimulus. It has no body: nothing constrains it (log 2). -/
opaque Config.freeInput : Nat → BitVec 5

end Sys2Proof
end

