-- ==== Sys2Proof/Machine/CfgCheck.lean ====
section
/-! DEFINITION. The values read off the configuration record (00_scope.md R11), its defaults (10_state.md R23 to
R29), the range of the platform parameters (00_scope.md R6) and `CfgValid` (44_top_control.md R250). -/

namespace Sys2Proof

/-- `W`, the configured WIDTH (00_scope.md R11). -/
def Cfg.w (c : Cfg) : Nat := c.width.toNat

/-- `L`, the configured MAP_LEN (00_scope.md R11). -/
def Cfg.len (c : Cfg) : Nat := c.mapLen.toNat

/-- `MAP[p]`; past the sixteen entries no rule reads one, and the zero entry stands there. -/
def Cfg.entry (c : Cfg) (p : Nat) : MapEntry := c.map.toList.getD p ⟨0, 0, 0⟩

/-- The entries `MAP[0 .. L-1]`, in map order; entries `p >= L` are ignored (10_state.md R24). -/
def Cfg.activeMap (c : Cfg) : List MapEntry := c.map.toList.take c.len

/-- The platform parameters are in the ranges of 00_scope.md R6. -/
abbrev Platform.InRange (p : Platform) : Prop := 1 ≤ p.ticksPerMs ∧ 1 ≤ p.tu ∧ p.tu ≤ 5461

/-- 44_top_control.md R250, condition 1. -/
abbrev Cfg.WidthOk (c : Cfg) : Prop := c.w = 11 ∨ c.w = 16

/-- 44_top_control.md R250, condition 2. -/
abbrev Cfg.MapLenOk (c : Cfg) : Prop := c.len ≤ 16

/-- 44_top_control.md R250, condition 3, first half: every used index is below WIDTH. -/
abbrev Cfg.MapInWidth (c : Cfg) : Prop := ∀ e ∈ c.activeMap, e.idx.toNat < c.w

/-- 44_top_control.md R250, condition 3, second half: the used indices are pairwise distinct. -/
abbrev Cfg.MapDistinct (c : Cfg) : Prop := c.activeMap.Pairwise fun a b => a.idx ≠ b.idx

/-- 44_top_control.md R250, condition 4 (the upper bound holds by the field's width). -/
abbrev Cfg.PollOk (p : Platform) (c : Cfg) : Prop :=
  c.mode = .sync → p.ticksPerMs ≤ c.pollPeriod.toNat ∧ c.pollPeriod.toNat ≤ 2 ^ 32 - 1

/-- 44_top_control.md R250, condition 5. -/
abbrev Cfg.BitPeriodOk (c : Cfg) : Prop :=
  c.mode = .async → 2 ≤ c.bitPeriod.toNat ∧ c.bitPeriod.toNat ≤ 65535

/-- 44_top_control.md R250, condition 6: every reserved bit of the packed image is 0. -/
abbrev Cfg.ReservedZero (c : Cfg) : Prop :=
  c.rsvd0 = 0 ∧ c.rsvd2 = 0 ∧ ∀ e ∈ c.map.toList, e.rsvd = 0

/-- `CfgValid(CFG)`, 44_top_control.md R250, as a check. -/
def cfgValid (p : Platform) (c : Cfg) : Bool :=
  decide c.WidthOk && decide c.MapLenOk && decide c.MapInWidth && decide c.MapDistinct && decide (c.PollOk p) &&
    decide c.BitPeriodOk && decide c.ReservedZero

/-- `CfgValid(CFG)`, 44_top_control.md R250. -/
abbrev Cfg.Valid (p : Platform) (c : Cfg) : Prop := cfgValid p c = true

/-- The default WIDTH of a mode, 10_state.md R23. -/
def defaultWidth : Mode → BitVec 5
  | .sync => 11
  | .async => 16

/-- The default POLL_PERIOD `2 * TICKS_PER_MS` (10_state.md R25); none where it does not fit the field (log 13). -/
def defaultPollPeriod (p : Platform) : Option (BitVec 32) :=
  if 2 * p.ticksPerMs < 2 ^ 32 then some (BitVec.ofNat 32 (2 * p.ticksPerMs)) else none

/-- The default BIT_PERIOD `floor(1000 * TICKS_PER_MS / 9600)` (10_state.md R26); none where it is not legal, so
that the owner must supply one (log 13). -/
def defaultBitPeriod (p : Platform) : Option (BitVec 16) :=
  let b := 1000 * p.ticksPerMs / 9600
  if 2 ≤ b ∧ b ≤ 65535 then some (BitVec.ofNat 16 b) else none

/-- The default START_EDGE, 10_state.md R27. -/
def defaultStartEdge : StartEdge := .falling

/-- The default HANDSHAKE, 10_state.md R28. -/
def defaultHandshake : Bool := false

/-- A map of sixteen unused entries. -/
def emptyMap : Vector MapEntry 16 := ⟨⟨List.replicate 16 ⟨0, 0, 0⟩⟩, rfl⟩

/-- The record an owner has who supplies only what has no default (MODE, MAP_LEN, MAP; 10_state.md R29). Where a
default is not legal the field is 0, which is no legal value of a field that the mode uses (log 13). -/
def Cfg.withDefaults (p : Platform) (m : Mode) (len : BitVec 5) (map : Vector MapEntry 16) : Cfg where
  mode := m
  width := defaultWidth m
  mapLen := len
  map := map
  pollPeriod := (defaultPollPeriod p).getD 0
  bitPeriod := (defaultBitPeriod p).getD 0
  startEdge := defaultStartEdge
  handshake := defaultHandshake

end Sys2Proof
end

