-- ==== Sys2Proof/Syntax.lean ====
section
/-! DEFINITION. The operations of JRHD-CORE: one constructor per row of spec/opcode_table.json
(30_encoding.md R112). The operations of R112 take their operands from state, inputs and signals, so only the
event-word format EV_REPORT carries fields of its own (30_encoding.md R104). -/

namespace Sys2Proof

/-- One row of the operation map (30_encoding.md R112), or an event word of the sink port (R104). -/
inductive Instr where
  -- unit 0, TOP
  | topReset
  | topInert
  | topRun
  -- unit 1, BS
  | bsIdle
  | bsCancel
  | bsCount
  | bsFireDelay
  | bsFireSample
  -- unit 2, POLL
  | pollOff
  | pollCount
  | pollStrobe
  -- unit 3, SSR
  | ssrAbort
  | ssrIdleHold
  | ssrStart
  | ssrWait
  | ssrLatchEnd
  | ssrSample
  | ssrClkEnd
  | ssrFinish
  -- unit 4, EDGE
  | edgeHold
  | edgeTrack
  -- unit 5, AFR
  | afrAbort
  | afrIdleHold
  | afrStart
  | afrWait
  | afrEdgeIgnored
  | afrSample
  | afrFinish
  -- unit 6, HAND
  | handNop
  | handWrite
  | handTake
  | handOverrun
  | handTakeWrite
  -- unit 7, SD
  | sdIdleHold
  | sdTake
  | sdSkip
  | sdReport
  | sdReportWait
  | sdSync
  | sdSyncWait
  -- the event-word formats
  | evReport (pressed : Bool) (id : BitVec 16)
  | evSync
deriving DecidableEq, Repr

end Sys2Proof
end

