-- ==== Sys2Proof/WellFormed.lean ====
section
/-! DEFINITION. What may be written: every operation of 30_encoding.md R112 and every event word built by the
constructors of `Instr` is legal (R110: no hint, no custom space, no reserved operand), so the checks are on the other
two things an owner writes, the platform parameters (00_scope.md R6) and the configuration record (44_top_control.md
R250), each named so that a refusal says which one failed. -/

namespace Sys2Proof

/-- Well-formedness of an operation as syntax: every term is one, since no constructor carries an operand with a
reserved value (30_encoding.md R104, R110). What is ill-formed is a word, and `decode` refuses it. -/
def Instr.wellFormed (_ : Instr) : Bool := true

/-- The checks on what an owner supplies. -/
inductive OwnerCheck where
  | ticksPerMs | tu
  | width | mapLen | mapInWidth | mapDistinct | pollPeriod | bitPeriod | reserved
deriving DecidableEq, Repr

/-- Whether one check accepts the platform parameters and the record. -/
def OwnerCheck.accepts (p : Platform) (c : Cfg) : OwnerCheck → Bool
  | .ticksPerMs => decide (1 ≤ p.ticksPerMs)
  | .tu => decide (1 ≤ p.tu ∧ p.tu ≤ 5461)
  | .width => decide c.WidthOk
  | .mapLen => decide c.MapLenOk
  | .mapInWidth => decide c.MapInWidth
  | .mapDistinct => decide c.MapDistinct
  | .pollPeriod => decide (c.PollOk p)
  | .bitPeriod => decide c.BitPeriodOk
  | .reserved => decide c.ReservedZero

/-- The checks that fail, in the order of 00_scope.md R6 and 44_top_control.md R250. -/
def failedChecks (p : Platform) (c : Cfg) : List OwnerCheck :=
  [.ticksPerMs, .tu, .width, .mapLen, .mapInWidth, .mapDistinct, .pollPeriod, .bitPeriod, .reserved].filter
    fun k => !k.accepts p c

end Sys2Proof
end

