-- ==== Sys2Proof/Decode.lean ====
section
/-! DEFINITION. The encodings of 30_encoding.md: the operation map R112 as a table of (match, mask) rows, the
event-word format R104, the decoder over both, total and rejecting by name, and the encoder. -/

namespace Sys2Proof

/-- A word to decode, tagged with its format (30_encoding.md R100, R104). -/
inductive CodeWord where
  | osv (v : Osv)
  | ev (w : EventWord)
deriving DecidableEq, Repr

/-- Why a word is rejected. -/
inductive Reject where
  /-- No row of R112 matches the OSV (30_encoding.md R103, R110: such an OSV is unreachable). -/
  | noRow (v : Osv)
  /-- Two rows of R112 match the OSV (30_encoding.md R103); no OSV is rejected so. -/
  | manyRows (v : Osv)
  /-- The event word has EV[17] = 1 and another bit set (30_encoding.md R104, R109). -/
  | reservedEvent (w : EventWord)
deriving DecidableEq, Repr

/-- One row of the operation map: it selects its operation when `(OSV & mask) == match` (30_encoding.md R100). -/
structure Row where
  instr   : Instr
  pattern : Osv
  mask    : Osv
deriving DecidableEq, Repr

def Row.selects (r : Row) (v : Osv) : Bool := v &&& r.mask == r.pattern

def topRows : List Row :=
  [⟨.topReset, 0x001, 0x701⟩, ⟨.topInert, 0x000, 0x703⟩, ⟨.topRun, 0x002, 0x703⟩]

def bsRows : List Row :=
  [⟨.bsIdle, 0x100, 0x710⟩, ⟨.bsCancel, 0x112, 0x712⟩, ⟨.bsCount, 0x110, 0x713⟩,
   ⟨.bsFireDelay, 0x111, 0x733⟩, ⟨.bsFireSample, 0x131, 0x733⟩]

def pollRows : List Row :=
  [⟨.pollOff, 0x202, 0x702⟩, ⟨.pollCount, 0x200, 0x703⟩, ⟨.pollStrobe, 0x201, 0x703⟩]

def ssrRows : List Row :=
  [⟨.ssrAbort, 0x302, 0x702⟩, ⟨.ssrIdleHold, 0x300, 0x7F6⟩, ⟨.ssrStart, 0x304, 0x7F6⟩,
   ⟨.ssrWait, 0x380, 0x783⟩, ⟨.ssrLatchEnd, 0x381, 0x7F3⟩, ⟨.ssrSample, 0x391, 0x7D3⟩,
   ⟨.ssrClkEnd, 0x3A1, 0x7F3⟩, ⟨.ssrFinish, 0x3C1, 0x7F3⟩]

def edgeRows : List Row :=
  [⟨.edgeHold, 0x401, 0x701⟩, ⟨.edgeTrack, 0x400, 0x701⟩]

def afrRows : List Row :=
  [⟨.afrAbort, 0x502, 0x702⟩, ⟨.afrIdleHold, 0x500, 0x7F6⟩, ⟨.afrStart, 0x504, 0x7F6⟩,
   ⟨.afrWait, 0x580, 0x7F7⟩, ⟨.afrEdgeIgnored, 0x584, 0x7F7⟩, ⟨.afrSample, 0x581, 0x7FB⟩,
   ⟨.afrFinish, 0x589, 0x7FB⟩]

def handRows : List Row :=
  [⟨.handNop, 0x600, 0x703⟩, ⟨.handWrite, 0x601, 0x713⟩, ⟨.handTake, 0x612, 0x713⟩,
   ⟨.handOverrun, 0x611, 0x713⟩, ⟨.handTakeWrite, 0x613, 0x713⟩]

def sdRows : List Row :=
  [⟨.sdIdleHold, 0x700, 0x7F1⟩, ⟨.sdTake, 0x701, 0x7F1⟩, ⟨.sdSkip, 0x710, 0x7F2⟩,
   ⟨.sdReport, 0x716, 0x7F6⟩, ⟨.sdReportWait, 0x712, 0x7F6⟩, ⟨.sdSync, 0x724, 0x7F4⟩,
   ⟨.sdSyncWait, 0x720, 0x7F4⟩]

/-- The complete operation map, 30_encoding.md R112. -/
def operationMap : List Row :=
  topRows ++ bsRows ++ pollRows ++ ssrRows ++ edgeRows ++ afrRows ++ handRows ++ sdRows

/-- The operation an OSV selects: the one row that matches it (30_encoding.md R100, R103). -/
def decodeOsv (v : Osv) : Except Reject Instr :=
  match operationMap.filter fun r => r.selects v with
  | [] => .error (.noRow v)
  | [r] => .ok r.instr
  | _ => .error (.manyRows v)

/-- EV[17], the kind bit (30_encoding.md R104). -/
def evKind (w : EventWord) : Bool := w.getLsbD 17

/-- EV[16], the pressed bit (30_encoding.md R104). -/
def evPressed (w : EventWord) : Bool := w.getLsbD 16

/-- EV[15:0], the identifier (30_encoding.md R104). -/
def evId (w : EventWord) : BitVec 16 := w.extractLsb' 0 16

/-- The SYNC event word (30_encoding.md R104). -/
def syncWord : EventWord := 0x20000

/-- A REPORT event word: kind 0, the pressed bit, the identifier (30_encoding.md R104, 43_state_differ.md R220). -/
def reportWord (pressed : Bool) (id : BitVec 16) : EventWord :=
  (BitVec.ofBool false ++ BitVec.ofBool pressed ++ id : BitVec (1 + 1 + 16))

/-- The event a word of the sink port carries (30_encoding.md R104). -/
def decodeEvent (w : EventWord) : Except Reject Instr :=
  if evKind w then
    if w = syncWord then .ok .evSync else .error (.reservedEvent w)
  else .ok (.evReport (evPressed w) (evId w))

/-- The decoder, total on every word of either format. -/
def decode : CodeWord → Except Reject Instr
  | .osv v => decodeOsv v
  | .ev w => decodeEvent w

/-- The encoder: the row's match value with every unread bit 0 (30_encoding.md R112), or the event word (R104). -/
def encode : Instr → CodeWord
  | .topReset => .osv 0x001
  | .topInert => .osv 0x000
  | .topRun => .osv 0x002
  | .bsIdle => .osv 0x100
  | .bsCancel => .osv 0x112
  | .bsCount => .osv 0x110
  | .bsFireDelay => .osv 0x111
  | .bsFireSample => .osv 0x131
  | .pollOff => .osv 0x202
  | .pollCount => .osv 0x200
  | .pollStrobe => .osv 0x201
  | .ssrAbort => .osv 0x302
  | .ssrIdleHold => .osv 0x300
  | .ssrStart => .osv 0x304
  | .ssrWait => .osv 0x380
  | .ssrLatchEnd => .osv 0x381
  | .ssrSample => .osv 0x391
  | .ssrClkEnd => .osv 0x3A1
  | .ssrFinish => .osv 0x3C1
  | .edgeHold => .osv 0x401
  | .edgeTrack => .osv 0x400
  | .afrAbort => .osv 0x502
  | .afrIdleHold => .osv 0x500
  | .afrStart => .osv 0x504
  | .afrWait => .osv 0x580
  | .afrEdgeIgnored => .osv 0x584
  | .afrSample => .osv 0x581
  | .afrFinish => .osv 0x589
  | .handNop => .osv 0x600
  | .handWrite => .osv 0x601
  | .handTake => .osv 0x612
  | .handOverrun => .osv 0x611
  | .handTakeWrite => .osv 0x613
  | .sdIdleHold => .osv 0x700
  | .sdTake => .osv 0x701
  | .sdSkip => .osv 0x710
  | .sdReport => .osv 0x716
  | .sdReportWait => .osv 0x712
  | .sdSync => .osv 0x724
  | .sdSyncWait => .osv 0x720
  | .evReport pressed id => .ev (reportWord pressed id)
  | .evSync => .ev syncWord

/-- The word of `nbits` bits, as the opcode table numbers them, as a word of one of the two formats: up to two bytes an
OSV, three bytes an event word. A bit above the format's width is no bit of the format and must be 0 (log 15). -/
def codeWordOf (nbits w : Nat) : Option CodeWord :=
  if nbits ≤ 16 then
    if w < 2 ^ 11 then some (.osv (BitVec.ofNat 11 w)) else none
  else if nbits ≤ 24 then
    if w < 2 ^ 18 then some (.ev (BitVec.ofNat 18 w)) else none
  else none

/-- What the decoder reads from a word of the opcode table. -/
def decodeTableWord (nbits w : Nat) : Option Instr :=
  match codeWordOf nbits w with
  | none => none
  | some cw =>
    match decode cw with
    | .ok i => some i
    | .error _ => none

end Sys2Proof
end

