-- ==== Sys2Proof/Machine/Regs.lean ====
section
/-! DEFINITION. The registers of the block (10_state.md R31 to R41), the codes of its state fields (R33, R39), the
reset record `S_rst(CFG)` (R45) and the wires of one tick (44_top_control.md R255). -/

namespace Sys2Proof.Machine

/-- The kind of a BitSampler request, `bs_kind` (10_state.md R31): 0 = DELAY, 1 = SAMPLE. -/
inductive ReqKind where
  | delay
  | sample
deriving DecidableEq, Repr

/-- The registers: one record `S` (10_state.md R20). -/
structure Regs where
  -- BitSampler, R31
  bsBusy      : Bool
  bsKind      : ReqKind
  bsRem       : BitVec 16
  bsFb        : Bool
  -- poll timer, R32
  pollCnt     : BitVec 32
  -- SyncShiftReader, R33
  ssrPhase    : BitVec 4
  ssrBit      : BitVec 5
  ssrAcc      : ButtonWord
  -- start-edge detector, R35
  edgePrev    : Bool
  -- AsyncFrameReader, R36, and the handshake line, R37
  afrSampling : Bool
  afrBit      : BitVec 5
  afrAcc      : ButtonWord
  syncOut     : Bool
  -- handoff, R38
  handFull    : Bool
  handWord    : ButtonWord
  -- StateDiffer, R39, and previous_word, R40
  sdState     : BitVec 2
  sdCur       : ButtonWord
  sdChg       : ButtonWord
  sdPos       : BitVec 5
  prevWord    : ButtonWord
  -- sticky status, R41
  overrun     : Bool
deriving DecidableEq, Repr

/-! The codes of `ssr_phase` (10_state.md R33). -/
abbrev phIdle : BitVec 4 := 0b0000#4
abbrev phLatch : BitVec 4 := 0b1000#4
abbrev phSettle : BitVec 4 := 0b1001#4
abbrev phClkHigh : BitVec 4 := 0b1010#4
abbrev phClkLow : BitVec 4 := 0b1011#4
abbrev phClkTail : BitVec 4 := 0b1100#4

/-! The codes of `sd_state` (10_state.md R39). -/
abbrev sdsIdle : BitVec 2 := 0b00#2
abbrev sdsEmit : BitVec 2 := 0b01#2
abbrev sdsSync : BitVec 2 := 0b10#2

/-- The idle level of the configured start edge (10_state.md R35). -/
def idleLevel : StartEdge → Bool
  | .falling => true
  | .rising => false

/-- `S_rst(CFG)`, 10_state.md R45. -/
def Regs.reset (c : Cfg) : Regs where
  bsBusy := false
  bsKind := .delay
  bsRem := 0#16
  bsFb := false
  pollCnt := 0#32
  ssrPhase := phIdle
  ssrBit := 0#5
  ssrAcc := 0#16
  edgePrev := idleLevel c.startEdge
  afrSampling := false
  afrBit := 0#5
  afrAcc := 0#16
  syncOut := false
  handFull := false
  handWord := 0#16
  sdState := sdsIdle
  sdCur := 0#16
  sdChg := 0#16
  sdPos := 0#5
  prevWord := 0#16
  overrun := false

/-- The wires that one unit drives and a later unit of the same tick reads (44_top_control.md R255). They hold nothing
between ticks. -/
structure Signals where
  bsFire     : Bool
  bsVal      : Bool
  pollStrobe : Bool
  startEdge  : Bool
  write      : Bool
  hwWord     : ButtonWord
deriving DecidableEq, Repr

/-- Every wire 0: its value where no rule of the tick sets it (40_bit_sampler.md section 2, 43_state_differ.md R210). -/
def Signals.quiet : Signals := ⟨false, false, false, false, false, 0#16⟩

end Sys2Proof.Machine
end

