-- ==== Sys2Proof/Machine/Stimulus.lean ====
section
/-! DEFINITION. The inputs of a tick (10_state.md R30), their packing (30_encoding.md R105), and the stimulus
programs that supply them (R113, R114). -/

namespace Sys2Proof.Machine

/-- The input vector `I_t` of a tick, 10_state.md R30. -/
structure Inputs where
  dataIn    : Bool
  dataFault : Bool
  sinkReady : Bool
  abort     : Bool
  rst       : Bool
deriving DecidableEq, Repr

/-- Unpacking `IV[4:0]`, 30_encoding.md R105. -/
def Inputs.ofIv (v : BitVec 5) : Inputs where
  dataIn := v.getLsbD 0
  dataFault := v.getLsbD 1
  sinkReady := v.getLsbD 2
  abort := v.getLsbD 3
  rst := v.getLsbD 4

/-- Packing to `IV[4:0]`, 30_encoding.md R105. -/
def Inputs.toIv (i : Inputs) : BitVec 5 :=
  (BitVec.ofBool i.rst ++ BitVec.ofBool i.abort ++ BitVec.ofBool i.sinkReady ++ BitVec.ofBool i.dataFault ++
    BitVec.ofBool i.dataIn : BitVec (1 + 1 + 1 + 1 + 1))

/-- The default inputs of the stimulus notation, 30_encoding.md R113. -/
def Inputs.dflt : Inputs := ⟨true, false, true, false, false⟩

/-- One run of a stimulus program: the same inputs for `n` ticks (30_encoding.md R113), and the configuration record the
owner presents in them (none: the record is held as it is; 70_reset_and_hazards.md R311, log 7). -/
structure StimRun where
  iv  : BitVec 5
  n   : Nat
  cfg : Option Cfg := none
deriving DecidableEq, Repr

/-- A run covers at least one tick (30_encoding.md R113: `n >= 1`). -/
def StimRun.wellFormed (r : StimRun) : Bool := 1 ≤ r.n

/-- What is left of a program after one tick of its first run. A run of zero ticks is not well-formed; it is left like a
run of one (log 17). -/
def stimRest : List StimRun → List StimRun
  | [] => []
  | r :: rs => if r.n ≤ 1 then rs else { r with n := r.n - 1 } :: rs

/-- A tick-line of the notation, 30_encoding.md R113: what it does not assign takes its default. -/
structure TickLine where
  n     : Nat
  din   : Option Bool := none
  fault : Option Bool := none
  ready : Option Bool := none
  abort : Option Bool := none
  rst   : Option Bool := none
deriving DecidableEq, Repr

/-- The inputs of a tick-line, 30_encoding.md R113. -/
def TickLine.inputs (t : TickLine) : Inputs where
  dataIn := t.din.getD Inputs.dflt.dataIn
  dataFault := t.fault.getD Inputs.dflt.dataFault
  sinkReady := t.ready.getD Inputs.dflt.sinkReady
  abort := t.abort.getD Inputs.dflt.abort
  rst := t.rst.getD Inputs.dflt.rst

/-- The run a tick-line stands for, 30_encoding.md R113. -/
def TickLine.run (t : TickLine) : StimRun := ⟨t.inputs.toIv, t.n, none⟩

/-- The pseudo-instructions of the notation, 30_encoding.md R114. -/
inductive Pseudo where
  | reset
  | idle (n : Nat)
  | level (v : Bool) (n : Nat)
  | stall (v : Bool) (n : Nat)
  | abort (v : Bool)
  | fault (v : Bool)
  | aframe (w : ButtonWord)
deriving DecidableEq, Repr

/-- The expansions of 30_encoding.md R114. -/
def Pseudo.expand (c : Cfg) : Pseudo → List TickLine
  | .reset => [{ n := 1, rst := some true }]
  | .idle n => [{ n := n }]
  | .level v n => [{ n := n, din := some v }]
  | .stall v n => [{ n := n, din := some v, ready := some false }]
  | .abort v => [{ n := 1, din := some v, abort := some true }]
  | .fault v => [{ n := 1, din := some v, fault := some true }]
  | .aframe w => (List.range c.w).map fun k => { n := c.bitPeriod.toNat, din := some (w.getLsbD k) }

/-- A stimulus program as the run-length list it encodes to, 30_encoding.md R113. -/
def stimProgram (ls : List TickLine) : List StimRun := ls.map TickLine.run

end Sys2Proof.Machine
end

