-- ==== Sys2Proof/Machine/State.lean ====
section
/-! DEFINITION. The state of the machine, its faults and refusals, and the state after reset. -/

namespace Sys2Proof.Machine

/-- Plain data. `plat` and `cfg` are the parameters of the step (00_scope.md R6, 10_state.md R21); `now` is the record
`S_t` and `nxt` the record `S_{t+1}` under construction (00_scope.md R8, R10; log 1); `sig` holds the wires of the tick
(44_top_control.md R255); `stim` is the environment's pending input (30_encoding.md R113; log 2); `tick` numbers the
ticks and `trace` is the sink trace (43_state_differ.md R221, 44_top_control.md R257; log 11). -/
structure State where
  plat  : Platform
  cfg   : Cfg
  now   : Regs
  nxt   : Regs
  sig   : Signals
  stim  : List StimRun
  tick  : Nat
  trace : List (Nat × EventWord)
deriving DecidableEq, Repr

/-- Why a run ends in a fault. -/
inductive Fault where
  /-- `Fault(UNREACHABLE)`, code 15: raised by TOP_RUN for a state that fails WF (44_top_control.md R251) and for a unit
  whose OSV selects no one row (30_encoding.md R103). Safe: the spec itself ends the run there. -/
  | unreachable
deriving DecidableEq, Repr

/-- Why the model refuses a step. -/
inductive Refusal where
  /-- An operation with no meaning: the form the host fixes. No operation of this model is refused so. Safe. -/
  | notModelled (mnemonic : String)
  /-- The platform parameters are outside 00_scope.md R6 (44_top_control.md R259). Raised by `step`. Safe: the spec
  refuses to instantiate such a model. -/
  | platformOutOfRange
  /-- The owner changes CFG in a tick with `rst` = 0 (70_reset_and_hazards.md R311, 44_top_control.md R259). Raised by
  `step`. Safe: the spec refuses it. -/
  | cfgChangedWithoutReset
deriving DecidableEq, Repr

/-- The three outcomes of an operation or a step. -/
abbrev Result := Host.Outcome State Fault Refusal

/-- A machine right after reset: every register at `S_rst(CFG)` (10_state.md R45), nothing pending, nothing sent. -/
def State.resetWith (p : Platform) (c : Cfg) : State where
  plat := p
  cfg := c
  now := Regs.reset c
  nxt := Regs.reset c
  sig := Signals.quiet
  stim := []
  tick := 0
  trace := []

/-- The platform parameters of `State.reset`: those of 95_test_vectors.md (DESIGN CHOICE, log 3). -/
def resetPlatform : Platform := ⟨100, 1⟩

/-- The configuration of `State.reset`: SYNC with an empty map and every other field at its default (DESIGN CHOICE,
log 4). -/
def resetCfg : Cfg := Cfg.withDefaults resetPlatform .sync 0 emptyMap

/-- The machine right after reset (10_state.md R45, R46), for the parameters and the record of logs 3 and 4. -/
def State.reset : State := State.resetWith resetPlatform resetCfg

end Sys2Proof.Machine
end

