-- ==== Sys2Proof/Machine/WfState.lean ====
section
/-! DEFINITION. `WF(CFG, S)`, the well-formedness of a record of registers: the ten conditions of 10_state.md R47. -/

namespace Sys2Proof.Machine

/-- No bit of a word at position `w` or above is set. -/
abbrev FitsIn (w : Nat) (x : ButtonWord) : Prop := x >>> w = 0#16

/-- 10_state.md R47, condition 1. -/
abbrev WfPhase (r : Regs) : Prop :=
  r.ssrPhase = phIdle ∨ r.ssrPhase = phLatch ∨ r.ssrPhase = phSettle ∨ r.ssrPhase = phClkHigh ∨
    r.ssrPhase = phClkLow ∨ r.ssrPhase = phClkTail

/-- 10_state.md R47, condition 2. -/
abbrev WfSdState (r : Regs) : Prop := r.sdState ≠ 0b11#2

/-- 10_state.md R47, condition 3. -/
abbrev WfRem (r : Regs) : Prop := r.bsBusy = true → 1 ≤ r.bsRem.toNat

/-- 10_state.md R47, condition 4. -/
abbrev WfBusy (c : Cfg) (r : Regs) : Prop :=
  (c.mode = .sync → r.bsBusy = r.ssrPhase.getLsbD 3) ∧ (c.mode = .async → r.bsBusy = r.afrSampling)

/-- 10_state.md R47, condition 5. -/
abbrev WfIdle (r : Regs) : Prop :=
  (r.ssrPhase = phIdle → r.ssrBit = 0#5 ∧ r.ssrAcc = 0#16) ∧ (r.afrSampling = false → r.afrBit = 0#5 ∧ r.afrAcc = 0#16)

/-- 10_state.md R47, condition 6. -/
abbrev WfSsrBit (c : Cfg) (r : Regs) : Prop :=
  (r.ssrPhase = phLatch ∨ r.ssrPhase = phSettle → r.ssrBit = 0#5) ∧
  (r.ssrPhase = phClkLow → 1 ≤ r.ssrBit.toNat ∧ r.ssrBit.toNat ≤ c.w - 1) ∧
  (r.ssrPhase = phClkHigh → 1 ≤ r.ssrBit.toNat ∧ r.ssrBit.toNat ≤ c.w) ∧
  (r.ssrPhase = phClkTail → r.ssrBit.toNat = c.w)

/-- 10_state.md R47, condition 7. -/
abbrev WfRequest (c : Cfg) (r : Regs) : Prop :=
  (r.ssrPhase = phLatch ∨ r.ssrPhase = phClkHigh ∨ r.ssrPhase = phClkTail → r.bsKind = .delay) ∧
  (r.ssrPhase = phSettle ∨ r.ssrPhase = phClkLow → r.bsKind = .sample ∧ r.bsFb = true) ∧
  (r.afrSampling = true → r.bsKind = .sample ∧ r.bsFb = false ∧ r.afrBit.toNat ≤ c.w - 1)

/-- 10_state.md R47, condition 8. -/
abbrev WfMode (c : Cfg) (r : Regs) : Prop :=
  (c.mode = .sync → r.afrSampling = false ∧ r.pollCnt.toNat ≤ c.pollPeriod.toNat - 1) ∧
  (c.mode = .async → r.ssrPhase = phIdle ∧ r.pollCnt = 0#32)

/-- 10_state.md R47, condition 9. -/
abbrev WfSdPos (c : Cfg) (r : Regs) : Prop :=
  (r.sdState = sdsEmit → r.sdPos.toNat < c.len) ∧ (r.sdState = sdsIdle → r.sdPos.toNat ≤ c.len) ∧
  (r.sdState = sdsSync → r.sdPos.toNat = c.len)

/-- 10_state.md R47, condition 10. -/
abbrev WfWords (c : Cfg) (r : Regs) : Prop :=
  FitsIn c.w r.ssrAcc ∧ FitsIn c.w r.afrAcc ∧ FitsIn c.w r.handWord ∧ FitsIn c.w r.sdCur ∧
    FitsIn c.w r.sdChg ∧ FitsIn c.w r.prevWord

/-- `WF(CFG, S)`, 10_state.md R47, as a check. -/
def wf (c : Cfg) (r : Regs) : Bool :=
  decide (WfPhase r) && decide (WfSdState r) && decide (WfRem r) && decide (WfBusy c r) && decide (WfIdle r) &&
    decide (WfSsrBit c r) && decide (WfRequest c r) && decide (WfMode c r) && decide (WfSdPos c r) &&
    decide (WfWords c r)

/-- `WF(CFG, S)`, 10_state.md R47. -/
abbrev WF (c : Cfg) (r : Regs) : Prop := wf c r = true

end Sys2Proof.Machine
end

