-- ==== Sys2Proof/Machine/Operands.lean ====
section
/-! DEFINITION. The operands of the operations: the inputs of the tick (10_state.md R30), the delays (00_scope.md R6,
R11, 30_encoding.md R107), the condition bits and the operation-select vectors built from them (R100 to R102, R108). -/

namespace Sys2Proof.Machine

/-- The inputs `I_t` of the tick: those of the pending stimulus, or a free draw of the environment (10_state.md R30). -/
def State.input (s : State) : Inputs :=
  match s.stim with
  | [] => Inputs.ofIv (Config.freeInput s.tick)
  | r :: _ => Inputs.ofIv r.iv

/-- The configuration record the owner presents in the tick (70_reset_and_hazards.md R311); where the stimulus presents
none, the record is held. -/
def State.cfgIn (s : State) : Cfg :=
  match s.stim with
  | [] => s.cfg
  | r :: _ => r.cfg.getD s.cfg

/-! ### Delay operands -/

/-- `T_LH = 12*TU` (00_scope.md R6), zero-extended to 16 bits (30_encoding.md R107). -/
def tLh (p : Platform) : BitVec 16 := BitVec.ofNat 16 (12 * p.tu)

/-- `T_LS = 6*TU`. -/
def tLs (p : Platform) : BitVec 16 := BitVec.ofNat 16 (6 * p.tu)

/-- `T_CH = 6*TU`. -/
def tCh (p : Platform) : BitVec 16 := BitVec.ofNat 16 (6 * p.tu)

/-- `T_CL = 6*TU`. -/
def tCl (p : Platform) : BitVec 16 := BitVec.ofNat 16 (6 * p.tu)

/-- `HALF = floor(BIT_PERIOD/2)` (10_state.md R26, 00_scope.md R11). -/
def half (c : Cfg) : BitVec 16 := c.bitPeriod / 2#16

/-! ### Signals that are functions of `S_t` alone (44_top_control.md R255, steps 6 and 7) -/

/-- `take = (S.sd_state == IDLE) and S.hand_full`. -/
def take (s : State) : Bool := s.now.sdState == sdsIdle && s.now.handFull

/-- `chg_hit = (S.sd_state == EMIT) and S.sd_chg[MAP[S.sd_pos].idx]`. -/
def chgHit (s : State) : Bool :=
  s.now.sdState == sdsEmit && s.now.sdChg.getLsbD (s.cfg.entry s.now.sdPos.toNat).idx.toNat

/-- `last_entry = (S.sd_state == EMIT) and S.sd_pos == L-1` (read only where `L >= 1`, 30_encoding.md R108; log 16). -/
def lastEntry (s : State) : Bool := s.now.sdState == sdsEmit && s.now.sdPos.toNat + 1 == s.cfg.len

/-! ### The operation-select vectors -/

/-- The units, 30_encoding.md R101. -/
inductive UnitName where
  | top | bs | poll | ssr | edge | afr | hand | sd
deriving DecidableEq, Repr

/-- The unit numbers, 30_encoding.md R101. -/
def UnitName.number : UnitName → BitVec 3
  | .top => 0#3
  | .bs => 1#3
  | .poll => 2#3
  | .ssr => 3#3
  | .edge => 4#3
  | .afr => 5#3
  | .hand => 6#3
  | .sd => 7#3

/-- Four bits, the highest first. -/
def nibble (b3 b2 b1 b0 : Bool) : BitVec 4 :=
  (BitVec.ofBool b3 ++ BitVec.ofBool b2 ++ BitVec.ofBool b1 ++ BitVec.ofBool b0 : BitVec (1 + 1 + 1 + 1))

/-- `OSV = {unit, st, cond}`, 30_encoding.md R100. -/
def mkOsv (u : UnitName) (st cond : BitVec 4) : Osv := (u.number ++ st ++ cond : BitVec (3 + 4 + 4))

/-- `MODE` as a condition bit (10_state.md R22). -/
def modeBit : Mode → Bool
  | .sync => false
  | .async => true

/-- `START_EDGE` as a condition bit (10_state.md R27). -/
def edgeBit : StartEdge → Bool
  | .falling => false
  | .rising => true

/-- `bs_kind` as a state bit (10_state.md R31). -/
def kindBit : ReqKind → Bool
  | .delay => false
  | .sample => true

/-- TOP's OSV, 30_encoding.md R102. The record checked is the one presented in the tick, which with `rst` = 0 is the one
held (log 7). -/
def topOsv (s : State) : Osv :=
  mkOsv .top 0#4 (nibble false false (cfgValid s.plat s.cfgIn) s.input.rst)

/-- BS's OSV, 30_encoding.md R102. -/
def bsOsv (s : State) : Osv :=
  mkOsv .bs (nibble false false (kindBit s.now.bsKind) s.now.bsBusy)
    (nibble false false s.input.abort (s.now.bsRem == 1#16))

/-- POLL's OSV, 30_encoding.md R102. -/
def pollOsv (s : State) : Osv :=
  mkOsv .poll 0#4 (nibble false false (modeBit s.cfg.mode) (s.now.pollCnt == s.cfg.pollPeriod - 1#32))

/-- SSR's OSV, 30_encoding.md R102. -/
def ssrOsv (s : State) : Osv :=
  mkOsv .ssr s.now.ssrPhase
    (nibble (s.now.ssrBit.toNat == s.cfg.w) s.sig.pollStrobe s.input.abort s.sig.bsFire)

/-- EDGE's OSV, 30_encoding.md R102. -/
def edgeOsv (s : State) : Osv :=
  mkOsv .edge (nibble false false false s.now.edgePrev)
    (nibble (modeBit s.cfg.mode) (edgeBit s.cfg.startEdge) s.input.dataIn s.input.dataFault)

/-- AFR's OSV, 30_encoding.md R102. -/
def afrOsv (s : State) : Osv :=
  mkOsv .afr (nibble s.now.afrSampling false false false)
    (nibble (s.now.afrBit.toNat == s.cfg.w - 1) s.sig.startEdge s.input.abort s.sig.bsFire)

/-- HAND's OSV, 30_encoding.md R102. -/
def handOsv (s : State) : Osv :=
  mkOsv .hand (nibble false false false s.now.handFull) (nibble false false (take s) s.sig.write)

/-- SD's OSV, 30_encoding.md R102. -/
def sdOsv (s : State) : Osv :=
  mkOsv .sd (nibble false false (s.now.sdState.getLsbD 1) (s.now.sdState.getLsbD 0))
    (nibble (lastEntry s) s.input.sinkReady (chgHit s) s.now.handFull)

/-- The OSV of a unit in the tick, 30_encoding.md R102, from `S_t`, the inputs, CFG and the signals that the units
before it have driven. -/
def osvOf : UnitName → State → Osv
  | .top => topOsv
  | .bs => bsOsv
  | .poll => pollOsv
  | .ssr => ssrOsv
  | .edge => edgeOsv
  | .afr => afrOsv
  | .hand => handOsv
  | .sd => sdOsv

end Sys2Proof.Machine
end

