-- ==== Sys2Proof/Machine/Ops.lean ====
section
/-! DEFINITION. The operations that several meanings share: capture (40_bit_sampler.md R131), the BitSampler request
(R132), offering a word to the handoff (43_state_differ.md R210), appending an event to the sink trace (R221), clearing
a reader, and the tick boundary (00_scope.md R8).

TAKING AN EXCEPTION: the block has no trap mechanism, no saved register and no return (60_exceptions.md R284, R292), so
there is no such shared operation here: each condition of R280 is handled by the operation that meets it. -/

namespace Sys2Proof.Machine

/-- `zext_16` of one bit (00_scope.md R9). -/
def zext16 (b : Bool) : ButtonWord := (BitVec.ofBool b).zeroExtend 16

/-- `acc | (zext_16(b) << i)`: the write of one sampled bit (41_sync_reader.md R160, 42_async_reader.md R189). -/
def orBit (acc : ButtonWord) (b : Bool) (i : Nat) : ButtonWord := acc ||| (zext16 b <<< i)

/-- `Capture(level, fault, fb)`, 40_bit_sampler.md R131. -/
def capture (level fault fb : Bool) : Bool := if fault then fb else level

/-- `BSRequest(kind, D, fb)`, 40_bit_sampler.md R132. It stands after the BS operation of the tick, so its values win
(44_top_control.md R256). -/
def bsRequest (kind : ReqKind) (d : BitVec 16) (fb : Bool) (s : State) : State :=
  { s with nxt := { s.nxt with bsBusy := true, bsKind := kind, bsRem := d, bsFb := fb } }

/-- `HandWrite(w)`, 43_state_differ.md R210: it drives `write` and `hw_word` and writes no register. -/
def handWrite (w : ButtonWord) (s : State) : State :=
  { s with sig := { s.sig with write := true, hwWord := w } }

/-- `Transfer(ev)`, 43_state_differ.md R221: the event word is appended once to the sink trace. -/
def transfer (w : EventWord) (s : State) : State :=
  { s with trace := s.trace ++ [(s.tick, w)] }

/-- The SSR's registers back to IDLE, bit count 0 and accumulator 0 (41_sync_reader.md R155, R162, R165). -/
def ssrClear (s : State) : State :=
  { s with nxt := { s.nxt with ssrPhase := phIdle, ssrBit := 0#5, ssrAcc := 0#16 } }

/-- The AFR's registers back to IDLE, bit count 0 and accumulator 0 (42_async_reader.md R184, R190). -/
def afrClear (s : State) : State :=
  { s with nxt := { s.nxt with afrSampling := false, afrBit := 0#5, afrAcc := 0#16 } }

/-- The SD's advance past the map position it visits (43_state_differ.md R224, R225). -/
def sdAdvance (s : State) : State :=
  { s with nxt := { s.nxt with
      sdPos := s.now.sdPos + 1#5
      sdState := if lastEntry s then sdsSync else s.nxt.sdState } }

/-- The start of a normal tick: no register is written yet and no wire is driven (00_scope.md R10, 44_top_control.md
R255). -/
def beginTick (s : State) : State := { s with nxt := s.now, sig := Signals.quiet }

/-- The tick boundary (00_scope.md R8): `S_{t+1}` becomes the record of the next tick, the wires fall to 0 and the
stimulus moves on by one tick. -/
def tickBoundary (s : State) : State :=
  { s with now := s.nxt, sig := Signals.quiet, stim := stimRest s.stim, tick := s.tick + 1 }

end Sys2Proof.Machine
end

