-- ==== Sys2Proof/Machine/Flags.lean ====
section
/-! DEFINITION. The block's only flag, the sticky `overrun` bit (10_state.md R41), its status outputs (R44), and the
exceptional conditions with their codes (60_exceptions.md R280), which the block records in no register. -/

namespace Sys2Proof.Machine

/-- `S'.overrun <- 1` (43_state_differ.md R214); only a reset clears the bit (10_state.md R41). -/
def setOverrun (s : State) : State := { s with nxt := { s.nxt with overrun := true } }

/-- The status outputs, 10_state.md R44. -/
structure Status where
  cfgErr      : Bool
  overrun     : Bool
  prevWord    : ButtonWord
  ssrPhase    : BitVec 4
  afrSampling : Bool
  sdState     : BitVec 2
  handFull    : Bool
deriving DecidableEq, Repr

/-- The status outputs as functions of `S_t` and the tick's CFG, 10_state.md R44. CFG is the record presented in the tick,
which with `rst` = 0 is the one held (70_reset_and_hazards.md R311; log 7). -/
def status (s : State) : Status where
  cfgErr := !cfgValid s.plat s.cfgIn
  overrun := s.now.overrun
  prevWord := s.now.prevWord
  ssrPhase := s.now.ssrPhase
  afrSampling := s.now.afrSampling
  sdState := s.now.sdState
  handFull := s.now.handFull

/-- The exceptional conditions, 60_exceptions.md R280. -/
inductive Cause where
  | lineFault
  | reentrantFrame
  | resourceUnavailable
  | overrun
  | abandon
  | unreachable
deriving DecidableEq, Repr

/-- The codes of 60_exceptions.md R280. -/
def Cause.code : Cause → Nat
  | .lineFault => 1
  | .reentrantFrame => 2
  | .resourceUnavailable => 3
  | .overrun => 4
  | .abandon => 5
  | .unreachable => 15

/-- The conditions that one operation of a tick meets: the column "raised by" of 60_exceptions.md R280, given the inputs
of the tick and its signals. -/
def causesOf (i : Instr) (inp : Inputs) (sig : Signals) : List Cause :=
  let line := if inp.dataFault then [Cause.lineFault] else []
  let edge := if sig.startEdge then [Cause.reentrantFrame] else []
  let strobe := if sig.pollStrobe then [Cause.reentrantFrame] else []
  match i with
  | .topInert => [.resourceUnavailable]
  | .bsFireSample => line
  | .bsCancel => [.abandon]
  | .ssrAbort => [.abandon]
  | .ssrWait => strobe
  | .ssrLatchEnd => strobe
  | .ssrSample => line ++ strobe
  | .ssrClkEnd => strobe
  | .ssrFinish => strobe
  | .edgeHold => line
  | .afrAbort => [.abandon]
  | .afrEdgeIgnored => [.reentrantFrame]
  | .afrSample => line ++ edge
  | .afrFinish => line ++ edge
  | .handOverrun => [.overrun]
  | _ => []

end Sys2Proof.Machine
end

