-- ==== Sys2Proof/Machine/Event.lean ====
section
/-! DEFINITION. The event port: the diff function (43_state_differ.md R216), the pending event (R218), the port and its
transfer (R220, R221), the pins (10_state.md R34, R37, R42, R43), and the meanings of the two event-word rows EV_REPORT
and EV_SYNC. -/

namespace Sys2Proof.Machine

/-- An event: `report(button_id, pressed)` or `sync()` (20_memory.md R82). -/
inductive Event where
  | report (id : BitVec 16) (pressed : Bool)
  | sync
deriving DecidableEq, Repr

/-- `Enc(ev)`, 43_state_differ.md R220. -/
def Event.word : Event → EventWord
  | .report id pressed => reportWord pressed id
  | .sync => syncWord

/-- The REPORT, if any, that one map entry gives (43_state_differ.md R216). -/
def reportOf (p c : ButtonWord) (e : MapEntry) : Option Event :=
  if (p ^^^ c).getLsbD e.idx.toNat then some (.report e.id (c.getLsbD e.idx.toNat)) else none

/-- `diff(p, c, MAP, L)`, 43_state_differ.md R216. -/
def diff (p c : ButtonWord) (cfg : Cfg) : List Event := cfg.activeMap.filterMap (reportOf p c) ++ [.sync]

/-- The REPORT of the map position the SD visits (43_state_differ.md R218, R225). -/
def currentReport (s : State) : Event :=
  let e := s.cfg.entry s.now.sdPos.toNat
  .report e.id (s.now.sdCur.getLsbD e.idx.toNat)

/-- `pend(S)`, 43_state_differ.md R218. -/
def pend (s : State) : Option Event :=
  if s.now.sdState = sdsEmit ∧ chgHit s = true then some (currentReport s)
  else if s.now.sdState = sdsSync then some .sync
  else none

/-- The port is open in a tick: `I.rst == 0 and CfgValid(CFG)` for the tick's CFG (43_state_differ.md R220; log 7). -/
def portOpen (s : State) : Bool := !s.input.rst && cfgValid s.plat s.cfgIn

/-- `ev_valid`, 43_state_differ.md R220. -/
def evValid (s : State) : Bool := portOpen s && (pend s).isSome

/-- `ev_word`, 43_state_differ.md R220: 0 while `ev_valid` is 0. -/
def evWord (s : State) : EventWord :=
  if evValid s then
    match pend s with
    | some e => e.word
    | none => 0#18
  else 0#18

/-- A word presented on the open port transfers exactly when the sink is ready (43_state_differ.md R220, R221). -/
def offer (w : EventWord) (s : State) : State :=
  if portOpen s && s.input.sinkReady then transfer w s else s

/-- The event word that transfers in the tick, if one does (43_state_differ.md R221). -/
def transferred (s : State) : Option EventWord :=
  if evValid s && s.input.sinkReady then some (evWord s) else none

/-- EV_REPORT, the row of 30_encoding.md R104 and 43_state_differ.md R220: this word on the event port (log 10). -/
def execEvReport (pressed : Bool) (id : BitVec 16) (s : State) : Result :=
  .next (offer (reportWord pressed id) s)

/-- EV_SYNC, the row of 30_encoding.md R104 and 43_state_differ.md R220: the frame-complete marker on the event port
(log 10). -/
def execEvSync (s : State) : Result := .next (offer syncWord s)

/-- The pins (20_memory.md R80). -/
inductive Pin where
  | data | latch | clock | sync
deriving DecidableEq, Repr

/-- What the mode makes of a pin. -/
inductive PinUse where
  | input
  | output
  | unused
deriving DecidableEq, Repr

/-- The pin directions, 10_state.md R43; an unused pin is driven 0. -/
def pinUse : Mode → Pin → PinUse
  | _, .data => .input
  | .sync, .latch => .output
  | .sync, .clock => .output
  | .sync, .sync => .unused
  | .async, .latch => .unused
  | .async, .clock => .unused
  | .async, .sync => .output

/-- What the ports of a tick carry, 10_state.md R42. -/
structure Outputs where
  latchOut : Bool
  clockOut : Bool
  syncOut  : Bool
  evValid  : Bool
  evWord   : EventWord
  status   : Status
deriving DecidableEq, Repr

/-- The levels of the ports as functions of `S_t`, `I_t` and CFG, 10_state.md R34, R37, R42 (that a pin the mode does not use
is 0, R43, is a consequence of WF and of the resets: log 12). They are outputs of the tick only where the tick defines
outputs, which `outputs` says (44_top_control.md R252). -/
def portLevels (s : State) : Outputs where
  latchOut := s.now.ssrPhase == phLatch
  clockOut := s.now.ssrPhase == phClkHigh
  syncOut := s.now.syncOut
  evValid := evValid s
  evWord := evWord s
  status := status s

end Sys2Proof.Machine
end

