-- ==== Sys2Proof/Machine/Afr.lean ====
section
/-! DEFINITION. Unit 5, the AsyncFrameReader (42_async_reader.md R184 to R190). -/

namespace Sys2Proof.Machine

/-- AFR_ABORT, 42_async_reader.md R184. -/
def execAfrAbort (s : State) : Result := .next (afrClear s)

/-- AFR_IDLE_HOLD, 42_async_reader.md R185. -/
def execAfrIdleHold (s : State) : Result := .next s

/-- AFR_START, 42_async_reader.md R186. -/
def execAfrStart (s : State) : Result :=
  .next (bsRequest .sample (half s.cfg) false
    { s with nxt := { s.nxt with afrSampling := true, afrBit := 0#5, afrAcc := 0#16 } })

/-- AFR_WAIT, 42_async_reader.md R187. -/
def execAfrWait (s : State) : Result := .next s

/-- AFR_EDGE_IGNORED, 42_async_reader.md R188. -/
def execAfrEdgeIgnored (s : State) : Result := .next s

/-- AFR_SAMPLE, 42_async_reader.md R189: the bit is the sampled level itself (R193). -/
def execAfrSample (s : State) : Result :=
  .next (bsRequest .sample s.cfg.bitPeriod false
    { s with nxt := { s.nxt with
        afrAcc := orBit s.now.afrAcc s.sig.bsVal s.now.afrBit.toNat
        afrBit := s.now.afrBit + 1#5 } })

/-- AFR_FINISH, 42_async_reader.md R190. The handshake line toggles whatever the handoff then does with the word
(R191). -/
def execAfrFinish (s : State) : Result :=
  .next (afrClear (handWrite (orBit s.now.afrAcc s.sig.bsVal (s.cfg.w - 1))
    { s with nxt := { s.nxt with
        syncOut := if s.cfg.handshake then !s.now.syncOut else s.nxt.syncOut } }))

/-- The AFR operation of a tick: the one its OSV selects (30_encoding.md R100, R103). -/
def runAfr (s : State) : Result :=
  match decode (.osv (afrOsv s)) with
  | .ok .afrAbort => execAfrAbort s
  | .ok .afrIdleHold => execAfrIdleHold s
  | .ok .afrStart => execAfrStart s
  | .ok .afrWait => execAfrWait s
  | .ok .afrEdgeIgnored => execAfrEdgeIgnored s
  | .ok .afrSample => execAfrSample s
  | .ok .afrFinish => execAfrFinish s
  | _ => .fault .unreachable

end Sys2Proof.Machine
end

