-- ==== Sys2Proof/Machine/Bs.lean ====
section
/-! DEFINITION. Unit 1, the BitSampler (40_bit_sampler.md R135 to R139). -/

namespace Sys2Proof.Machine

/-- BS_IDLE, 40_bit_sampler.md R135. -/
def execBsIdle (s : State) : Result := .next { s with sig := { s.sig with bsFire := false } }

/-- BS_CANCEL, 40_bit_sampler.md R136. -/
def execBsCancel (s : State) : Result :=
  .next { s with
    nxt := { s.nxt with bsBusy := false }
    sig := { s.sig with bsFire := false } }

/-- BS_COUNT, 40_bit_sampler.md R137. -/
def execBsCount (s : State) : Result :=
  .next { s with
    nxt := { s.nxt with bsRem := s.now.bsRem - 1#16 }
    sig := { s.sig with bsFire := false } }

/-- BS_FIRE_DELAY, 40_bit_sampler.md R138. -/
def execBsFireDelay (s : State) : Result :=
  .next { s with
    nxt := { s.nxt with bsBusy := false }
    sig := { s.sig with bsFire := true } }

/-- BS_FIRE_SAMPLE, 40_bit_sampler.md R139. -/
def execBsFireSample (s : State) : Result :=
  .next { s with
    nxt := { s.nxt with bsBusy := false }
    sig := { s.sig with
      bsFire := true
      bsVal := capture s.input.dataIn s.input.dataFault s.now.bsFb } }

/-- The BS operation of a tick: the one its OSV selects (30_encoding.md R100, R103). -/
def runBs (s : State) : Result :=
  match decode (.osv (bsOsv s)) with
  | .ok .bsIdle => execBsIdle s
  | .ok .bsCancel => execBsCancel s
  | .ok .bsCount => execBsCount s
  | .ok .bsFireDelay => execBsFireDelay s
  | .ok .bsFireSample => execBsFireSample s
  | _ => .fault .unreachable

end Sys2Proof.Machine
end

