-- ==== Sys2Proof/Machine/Edge.lean ====
section
/-! DEFINITION. Unit 4, the start-edge detector (42_async_reader.md R180, R181). -/

namespace Sys2Proof.Machine

/-- The start edge of a fault-free tick: DATA left its idle level in the configured direction, in ASYNC mode
(42_async_reader.md R180). -/
def startEdgeSeen (c : Cfg) (prev level : Bool) : Bool :=
  match c.mode, c.startEdge with
  | .sync, _ => false
  | .async, .falling => prev && !level
  | .async, .rising => !prev && level

/-- EDGE_HOLD, 42_async_reader.md R181. -/
def execEdgeHold (s : State) : Result := .next { s with sig := { s.sig with startEdge := false } }

/-- EDGE_TRACK, 42_async_reader.md R180. -/
def execEdgeTrack (s : State) : Result :=
  .next { s with
    nxt := { s.nxt with edgePrev := s.input.dataIn }
    sig := { s.sig with startEdge := startEdgeSeen s.cfg s.now.edgePrev s.input.dataIn } }

/-- The EDGE operation of a tick: the one its OSV selects (30_encoding.md R100, R103). -/
def runEdge (s : State) : Result :=
  match decode (.osv (edgeOsv s)) with
  | .ok .edgeHold => execEdgeHold s
  | .ok .edgeTrack => execEdgeTrack s
  | _ => .fault .unreachable

end Sys2Proof.Machine
end

