-- ==== Sys2Proof/Machine/Hand.lean ====
section
/-! DEFINITION. Unit 6, the frame handoff (43_state_differ.md R211 to R215). -/

namespace Sys2Proof.Machine

/-- HAND_NOP, 43_state_differ.md R211. -/
def execHandNop (s : State) : Result := .next s

/-- HAND_WRITE, 43_state_differ.md R212. -/
def execHandWrite (s : State) : Result :=
  .next { s with nxt := { s.nxt with handWord := s.sig.hwWord, handFull := true } }

/-- HAND_TAKE, 43_state_differ.md R213. -/
def execHandTake (s : State) : Result := .next { s with nxt := { s.nxt with handFull := false } }

/-- HAND_OVERRUN, 43_state_differ.md R214. -/
def execHandOverrun (s : State) : Result := .next (setOverrun s)

/-- HAND_TAKE_WRITE, 43_state_differ.md R215. -/
def execHandTakeWrite (s : State) : Result :=
  .next { s with nxt := { s.nxt with handWord := s.sig.hwWord, handFull := true } }

/-- The HAND operation of a tick: the one its OSV selects (30_encoding.md R100, R103). -/
def runHand (s : State) : Result :=
  match decode (.osv (handOsv s)) with
  | .ok .handNop => execHandNop s
  | .ok .handWrite => execHandWrite s
  | .ok .handTake => execHandTake s
  | .ok .handOverrun => execHandOverrun s
  | .ok .handTakeWrite => execHandTakeWrite s
  | _ => .fault .unreachable

end Sys2Proof.Machine
end

