-- ==== Sys2Proof/Machine/Poll.lean ====
section
/-! DEFINITION. Unit 2, the poll timer (41_sync_reader.md R150 to R152). -/

namespace Sys2Proof.Machine

/-- POLL_OFF, 41_sync_reader.md R150. -/
def execPollOff (s : State) : Result :=
  .next { s with
    nxt := { s.nxt with pollCnt := 0#32 }
    sig := { s.sig with pollStrobe := false } }

/-- POLL_COUNT, 41_sync_reader.md R151. -/
def execPollCount (s : State) : Result :=
  .next { s with
    nxt := { s.nxt with pollCnt := s.now.pollCnt + 1#32 }
    sig := { s.sig with pollStrobe := false } }

/-- POLL_STROBE, 41_sync_reader.md R152. -/
def execPollStrobe (s : State) : Result :=
  .next { s with
    nxt := { s.nxt with pollCnt := 0#32 }
    sig := { s.sig with pollStrobe := true } }

/-- The POLL operation of a tick: the one its OSV selects (30_encoding.md R100, R103). -/
def runPoll (s : State) : Result :=
  match decode (.osv (pollOsv s)) with
  | .ok .pollOff => execPollOff s
  | .ok .pollCount => execPollCount s
  | .ok .pollStrobe => execPollStrobe s
  | _ => .fault .unreachable

end Sys2Proof.Machine
end

