-- ==== Sys2Proof/Machine/Sd.lean ====
section
/-! DEFINITION. Unit 7, the StateDiffer (43_state_differ.md R222 to R228). -/

namespace Sys2Proof.Machine

/-- SD_IDLE_HOLD, 43_state_differ.md R222. -/
def execSdIdleHold (s : State) : Result := .next s

/-- SD_TAKE, 43_state_differ.md R223. -/
def execSdTake (s : State) : Result :=
  .next { s with nxt := { s.nxt with
    sdCur := s.now.handWord
    sdChg := s.now.prevWord ^^^ s.now.handWord
    sdPos := 0#5
    sdState := if 0 < s.cfg.len then sdsEmit else sdsSync } }

/-- SD_SKIP, 43_state_differ.md R224. -/
def execSdSkip (s : State) : Result := .next (sdAdvance s)

/-- SD_REPORT, 43_state_differ.md R225. -/
def execSdReport (s : State) : Result := .next (sdAdvance (transfer (currentReport s).word s))

/-- SD_REPORT_WAIT, 43_state_differ.md R226. -/
def execSdReportWait (s : State) : Result := .next s

/-- SD_SYNC, 43_state_differ.md R227. -/
def execSdSync (s : State) : Result :=
  .next (transfer Event.sync.word { s with nxt := { s.nxt with prevWord := s.now.sdCur, sdState := sdsIdle } })

/-- SD_SYNC_WAIT, 43_state_differ.md R228: no register is written. What a reset in this tick leaves in `prev_word` is
`execTopReset`'s, which does not follow R228's sentence about it (DEDUCED, log 23). -/
def execSdSyncWait (s : State) : Result := .next s

/-- The SD operation of a tick: the one its OSV selects (30_encoding.md R100, R103). -/
def runSd (s : State) : Result :=
  match decode (.osv (sdOsv s)) with
  | .ok .sdIdleHold => execSdIdleHold s
  | .ok .sdTake => execSdTake s
  | .ok .sdSkip => execSdSkip s
  | .ok .sdReport => execSdReport s
  | .ok .sdReportWait => execSdReportWait s
  | .ok .sdSync => execSdSync s
  | .ok .sdSyncWait => execSdSyncWait s
  | _ => .fault .unreachable

end Sys2Proof.Machine
end

