-- ==== Sys2Proof/Machine/Ssr.lean ====
section
/-! DEFINITION. Unit 3, the SyncShiftReader (41_sync_reader.md R155 to R162). -/

namespace Sys2Proof.Machine

/-- SSR_ABORT, 41_sync_reader.md R155. -/
def execSsrAbort (s : State) : Result := .next (ssrClear s)

/-- SSR_IDLE_HOLD, 41_sync_reader.md R156. -/
def execSsrIdleHold (s : State) : Result := .next s

/-- SSR_START, 41_sync_reader.md R157. -/
def execSsrStart (s : State) : Result :=
  .next (bsRequest .delay (tLh s.plat) false
    { s with nxt := { s.nxt with ssrPhase := phLatch, ssrBit := 0#5, ssrAcc := 0#16 } })

/-- SSR_WAIT, 41_sync_reader.md R158. -/
def execSsrWait (s : State) : Result := .next s

/-- SSR_LATCH_END, 41_sync_reader.md R159. -/
def execSsrLatchEnd (s : State) : Result :=
  .next (bsRequest .sample (tLs s.plat) true { s with nxt := { s.nxt with ssrPhase := phSettle } })

/-- SSR_SAMPLE, 41_sync_reader.md R160: `pressed = (sample == 0)` (R154). -/
def execSsrSample (s : State) : Result :=
  .next (bsRequest .delay (tCh s.plat) false
    { s with nxt := { s.nxt with
        ssrAcc := orBit s.now.ssrAcc (!s.sig.bsVal) s.now.ssrBit.toNat
        ssrBit := s.now.ssrBit + 1#5
        ssrPhase := phClkHigh } })

/-- SSR_CLK_END, 41_sync_reader.md R161. -/
def execSsrClkEnd (s : State) : Result :=
  if s.now.ssrBit.toNat = s.cfg.w then
    .next (bsRequest .delay (tCl s.plat) false { s with nxt := { s.nxt with ssrPhase := phClkTail } })
  else
    .next (bsRequest .sample (tCl s.plat) true { s with nxt := { s.nxt with ssrPhase := phClkLow } })

/-- SSR_FINISH, 41_sync_reader.md R162. -/
def execSsrFinish (s : State) : Result := .next (ssrClear (handWrite s.now.ssrAcc s))

/-- The SSR operation of a tick: the one its OSV selects (30_encoding.md R100, R103). -/
def runSsr (s : State) : Result :=
  match decode (.osv (ssrOsv s)) with
  | .ok .ssrAbort => execSsrAbort s
  | .ok .ssrIdleHold => execSsrIdleHold s
  | .ok .ssrStart => execSsrStart s
  | .ok .ssrWait => execSsrWait s
  | .ok .ssrLatchEnd => execSsrLatchEnd s
  | .ok .ssrSample => execSsrSample s
  | .ok .ssrClkEnd => execSsrClkEnd s
  | .ok .ssrFinish => execSsrFinish s
  | _ => .fault .unreachable

end Sys2Proof.Machine
end

