-- ==== Sys2Proof/Machine/Top.lean ====
section
/-! DEFINITION. Unit 0, top control (44_top_control.md R253 to R255), and the composition of a tick. -/

namespace Sys2Proof.Machine

/-- TOP_RESET, 44_top_control.md R253: `S' <- S_rst(CFG)` for the record presented in the tick (70_reset_and_hazards.md
R311). `prev_word` becomes 0 with every other register, also in a tick in which the SD waits with a SYNC: the sentence of
43_state_differ.md R228, that such a reset leaves `prev_word` at its value from before the frame, is not followed (DEDUCED,
log 23). -/
def execTopReset (s : State) : Result :=
  .next { s with cfg := s.cfgIn, nxt := Regs.reset s.cfgIn }

/-- TOP_INERT, 44_top_control.md R254. -/
def execTopInert (s : State) : Result := .next { s with nxt := Regs.reset s.cfg }

/-- The operation of one of the units 1 to 7. TOP is no such unit: it has run already (44_top_control.md R255). -/
def runUnit : UnitName → State → Result
  | .top => fun s => .next s
  | .bs => runBs
  | .poll => runPoll
  | .ssr => runSsr
  | .edge => runEdge
  | .afr => runAfr
  | .hand => runHand
  | .sd => runSd

/-- Units in order, each reading the signals that those before it have driven; a fault ends the tick. -/
def runUnits : List UnitName → State → Result
  | [], s => .next s
  | u :: us, s =>
    match runUnit u s with
    | .next s' => runUnits us s'
    | .fault f => .fault f
    | .refused r => .refused r

/-- Units 1 to 7, in the order in which a tick evaluates them (30_encoding.md R101, 44_top_control.md R255). -/
def tickUnits : List UnitName := [.bs, .poll, .ssr, .edge, .afr, .hand, .sd]

/-- TOP_RUN, 44_top_control.md R255: the check of WF (R251), then every unit's operation; `nxt` is then `S'`, the merge of
all their writes (R256). -/
def execTopRun (s : State) : Result :=
  if WF s.cfg s.now then runUnits tickUnits (beginTick s) else .fault .unreachable

end Sys2Proof.Machine
end

