-- ==== Sys2Proof/Machine/Dispatch.lean ====
section
/-! DEFINITION. The meaning of every operation of spec/opcode_table.json, one arm each. -/

namespace Sys2Proof.Machine

def exec (i : Instr) (s : State) : Host.Outcome State Fault Refusal :=
  match i with
  -- TOP
  | .topReset => Sys2Proof.Machine.execTopReset s
  | .topInert => Sys2Proof.Machine.execTopInert s
  | .topRun => Sys2Proof.Machine.execTopRun s
  -- BS
  | .bsIdle => Sys2Proof.Machine.execBsIdle s
  | .bsCancel => Sys2Proof.Machine.execBsCancel s
  | .bsCount => Sys2Proof.Machine.execBsCount s
  | .bsFireDelay => Sys2Proof.Machine.execBsFireDelay s
  | .bsFireSample => Sys2Proof.Machine.execBsFireSample s
  -- POLL
  | .pollOff => Sys2Proof.Machine.execPollOff s
  | .pollCount => Sys2Proof.Machine.execPollCount s
  | .pollStrobe => Sys2Proof.Machine.execPollStrobe s
  -- SSR
  | .ssrAbort => Sys2Proof.Machine.execSsrAbort s
  | .ssrIdleHold => Sys2Proof.Machine.execSsrIdleHold s
  | .ssrStart => Sys2Proof.Machine.execSsrStart s
  | .ssrWait => Sys2Proof.Machine.execSsrWait s
  | .ssrLatchEnd => Sys2Proof.Machine.execSsrLatchEnd s
  | .ssrSample => Sys2Proof.Machine.execSsrSample s
  | .ssrClkEnd => Sys2Proof.Machine.execSsrClkEnd s
  | .ssrFinish => Sys2Proof.Machine.execSsrFinish s
  -- EDGE
  | .edgeHold => Sys2Proof.Machine.execEdgeHold s
  | .edgeTrack => Sys2Proof.Machine.execEdgeTrack s
  -- AFR
  | .afrAbort => Sys2Proof.Machine.execAfrAbort s
  | .afrIdleHold => Sys2Proof.Machine.execAfrIdleHold s
  | .afrStart => Sys2Proof.Machine.execAfrStart s
  | .afrWait => Sys2Proof.Machine.execAfrWait s
  | .afrEdgeIgnored => Sys2Proof.Machine.execAfrEdgeIgnored s
  | .afrSample => Sys2Proof.Machine.execAfrSample s
  | .afrFinish => Sys2Proof.Machine.execAfrFinish s
  -- HAND
  | .handNop => Sys2Proof.Machine.execHandNop s
  | .handWrite => Sys2Proof.Machine.execHandWrite s
  | .handTake => Sys2Proof.Machine.execHandTake s
  | .handOverrun => Sys2Proof.Machine.execHandOverrun s
  | .handTakeWrite => Sys2Proof.Machine.execHandTakeWrite s
  -- SD
  | .sdIdleHold => Sys2Proof.Machine.execSdIdleHold s
  | .sdTake => Sys2Proof.Machine.execSdTake s
  | .sdSkip => Sys2Proof.Machine.execSdSkip s
  | .sdReport => Sys2Proof.Machine.execSdReport s
  | .sdReportWait => Sys2Proof.Machine.execSdReportWait s
  | .sdSync => Sys2Proof.Machine.execSdSync s
  | .sdSyncWait => Sys2Proof.Machine.execSdSyncWait s
  -- event words
  | .evReport pressed id => Sys2Proof.Machine.execEvReport pressed id s
  | .evSync => Sys2Proof.Machine.execEvSync s

end Sys2Proof.Machine
end

