-- ==== Sys2Proof/Machine/Situation.lean ====
section
/-! DEFINITION. How an operation comes to be the one a tick selects. The block fetches nothing (20_memory.md R89): a
unit's operation is selected by its state code, its condition bits and the mode (30_encoding.md R100, R102). For each row
this file gives a reachable kind of situation that selects it: a legal record, well-formed registers and the inputs of
one tick (95_test_vectors.md section 2 writes such situations down). The step runs it (log 5, log 6). -/

namespace Sys2Proof.Machine

/-- What a row needs in order to be selected. -/
structure Situation where
  cfg    : Cfg
  regs   : Regs
  inputs : Inputs
deriving DecidableEq, Repr

/-- A legal record of the mode: the machine's own where it is one, else one with the longest poll period. -/
def recordFor (m : Mode) (s : State) : Cfg :=
  if s.cfg.mode = m ∧ s.cfg.Valid s.plat then s.cfg
  else
    { mode := m, width := defaultWidth m, mapLen := 0, map := emptyMap, pollPeriod := BitVec.allOnes 32
      bitPeriod := 10, startEdge := defaultStartEdge, handshake := false }

/-- The same record with the one map entry (0, id). -/
def withOneEntry (c : Cfg) (id : BitVec 16) : Cfg :=
  { c with mapLen := 1, map := ⟨⟨⟨0, id, 0⟩ :: List.replicate 15 ⟨0, 0, 0⟩⟩, rfl⟩ }

/-- Registers at rest. -/
def atRest (c : Cfg) : Regs := Regs.reset c

/-- The SSR in a phase, its delay with `rem` ticks left. -/
def inPhase (c : Cfg) (ph : BitVec 4) (kind : ReqKind) (fb : Bool) (bit : Nat) (rem : BitVec 16) : Regs :=
  { Regs.reset c with
    ssrPhase := ph, ssrBit := BitVec.ofNat 5 bit
    bsBusy := true, bsKind := kind, bsFb := fb, bsRem := rem }

/-- The SSR in the fire tick that completes a frame. -/
def finishing (c : Cfg) : Regs := inPhase c phClkTail .delay false c.w 1

/-- The AFR in SAMPLING at a bit, its delay with `rem` ticks left. -/
def samplingAt (c : Cfg) (bit : Nat) (rem : BitVec 16) : Regs :=
  { Regs.reset c with
    afrSampling := true, afrBit := BitVec.ofNat 5 bit
    bsBusy := true, bsKind := .sample, bsRem := rem }

/-- The SD in EMIT at position 0, whose bit changed or not and is now `pressed`. -/
def emitting (c : Cfg) (changed pressed : Bool) : Regs :=
  { Regs.reset c with sdState := sdsEmit, sdChg := zext16 changed, sdCur := zext16 pressed }

/-- The SD in SYNC. -/
def syncing (c : Cfg) : Regs := { Regs.reset c with sdState := sdsSync, sdPos := c.mapLen }

/-- Inputs with DATA at the idle level of the configured edge. -/
def idleIn (c : Cfg) : Inputs := { Inputs.dflt with dataIn := idleLevel c.startEdge }

/-- Inputs that give a start edge. -/
def edgeIn (c : Cfg) : Inputs := { Inputs.dflt with dataIn := !idleLevel c.startEdge }

/-- A situation that selects the row. -/
def situationFor (i : Instr) (s : State) : Situation :=
  let cs := recordFor .sync s
  let ca := recordFor .async s
  let cm := withOneEntry cs 0
  match i with
  | .topReset => ⟨s.cfg, s.now, { Inputs.dflt with rst := true }⟩
  | .topInert => ⟨{ cs with width := 12 }, s.now, Inputs.dflt⟩
  | .topRun => ⟨cs, atRest cs, Inputs.dflt⟩
  | .bsIdle => ⟨cs, atRest cs, Inputs.dflt⟩
  | .bsCancel => ⟨cs, inPhase cs phLatch .delay false 0 1, { Inputs.dflt with abort := true }⟩
  | .bsCount => ⟨cs, inPhase cs phLatch .delay false 0 5, Inputs.dflt⟩
  | .bsFireDelay => ⟨cs, inPhase cs phLatch .delay false 0 1, Inputs.dflt⟩
  | .bsFireSample => ⟨cs, inPhase cs phSettle .sample true 0 1, Inputs.dflt⟩
  | .pollOff => ⟨ca, atRest ca, idleIn ca⟩
  | .pollCount =>
    let c := { cs with pollPeriod := BitVec.allOnes 32 }
    ⟨c, atRest c, Inputs.dflt⟩
  | .pollStrobe => ⟨cs, { atRest cs with pollCnt := cs.pollPeriod - 1 }, Inputs.dflt⟩
  | .ssrAbort => ⟨cs, atRest cs, { Inputs.dflt with abort := true }⟩
  | .ssrIdleHold => ⟨{ cs with pollPeriod := BitVec.allOnes 32 }, atRest cs, Inputs.dflt⟩
  | .ssrStart => ⟨cs, { atRest cs with pollCnt := cs.pollPeriod - 1 }, Inputs.dflt⟩
  | .ssrWait => ⟨cs, inPhase cs phLatch .delay false 0 5, Inputs.dflt⟩
  | .ssrLatchEnd => ⟨cs, inPhase cs phLatch .delay false 0 1, Inputs.dflt⟩
  | .ssrSample => ⟨cs, inPhase cs phSettle .sample true 0 1, Inputs.dflt⟩
  | .ssrClkEnd => ⟨cs, inPhase cs phClkHigh .delay false 1 1, Inputs.dflt⟩
  | .ssrFinish => ⟨cs, finishing cs, Inputs.dflt⟩
  | .edgeHold => ⟨cs, atRest cs, { Inputs.dflt with dataFault := true }⟩
  | .edgeTrack => ⟨cs, atRest cs, Inputs.dflt⟩
  | .afrAbort => ⟨ca, atRest ca, { idleIn ca with abort := true }⟩
  | .afrIdleHold => ⟨ca, atRest ca, idleIn ca⟩
  | .afrStart => ⟨ca, atRest ca, edgeIn ca⟩
  | .afrWait => ⟨ca, samplingAt ca 0 5, idleIn ca⟩
  | .afrEdgeIgnored => ⟨ca, samplingAt ca 0 5, edgeIn ca⟩
  | .afrSample => ⟨ca, samplingAt ca 0 1, idleIn ca⟩
  | .afrFinish => ⟨ca, samplingAt ca (ca.w - 1) 1, idleIn ca⟩
  | .handNop => ⟨cs, atRest cs, Inputs.dflt⟩
  | .handWrite => ⟨cs, finishing cs, Inputs.dflt⟩
  | .handTake => ⟨cs, { atRest cs with handFull := true }, Inputs.dflt⟩
  | .handOverrun => ⟨cs, { finishing cs with handFull := true, sdState := sdsSync, sdPos := cs.mapLen }, Inputs.dflt⟩
  | .handTakeWrite => ⟨cs, { finishing cs with handFull := true }, Inputs.dflt⟩
  | .sdIdleHold => ⟨cs, atRest cs, Inputs.dflt⟩
  | .sdTake => ⟨cs, { atRest cs with handFull := true }, Inputs.dflt⟩
  | .sdSkip => ⟨cm, emitting cm false false, Inputs.dflt⟩
  | .sdReport => ⟨cm, emitting cm true true, Inputs.dflt⟩
  | .sdReportWait => ⟨cm, emitting cm true true, { Inputs.dflt with sinkReady := false }⟩
  | .sdSync => ⟨cs, syncing cs, Inputs.dflt⟩
  | .sdSyncWait => ⟨cs, syncing cs, { Inputs.dflt with sinkReady := false }⟩
  | .evReport pressed id =>
    let c := withOneEntry cs id
    ⟨c, emitting c true pressed, Inputs.dflt⟩
  | .evSync => ⟨cs, syncing cs, Inputs.dflt⟩

/-- The machine put into a situation for its next tick: the record, the registers and one tick of stimulus. The platform
parameters, the tick number and the sink trace stay as they are. -/
def State.inSituation (s : State) (g : Situation) : State :=
  { s with
    cfg := g.cfg, now := g.regs, nxt := g.regs, sig := Signals.quiet
    stim := [⟨g.inputs.toIv, 1, none⟩] }

/-- The machine whose next tick selects the operation. -/
def State.selecting (s : State) (i : Instr) : State := s.inSituation (situationFor i s)

end Sys2Proof.Machine
end

