-- ==== Sys2Proof/Machine/Trace.lean ====
section
/-! DEFINITION. What a model exposes of a tick beside the next state (44_top_control.md R257): the operations performed,
the exceptional conditions met (60_exceptions.md R280), and the trace syntax (30_encoding.md R115). -/

namespace Sys2Proof.Machine

/-- The operations that units perform in order, each selected after the units before it have driven their signals. -/
def unitOps : List UnitName → State → List Instr
  | [], _ => []
  | u :: us, s =>
    match decode (.osv (osvOf u s)), runUnit u s with
    | .ok i, .next s' => i :: unitOps us s'
    | _, _ => []

/-- The operations performed in a tick, TOP's first (30_encoding.md R100, 44_top_control.md R255). A tick that starts in a
state failing WF performs none (R251). -/
def tickOps (s : State) : List Instr :=
  match decode (.osv (topOsv s)) with
  | .ok .topRun => if WF s.cfg s.now then .topRun :: unitOps tickUnits (beginTick s) else []
  | .ok i => [i]
  | .error _ => []

/-- The signals of a normal tick, as its units leave them (44_top_control.md R255). -/
def tickSignals (s : State) : Signals :=
  match runUnits tickUnits (beginTick s) with
  | .next s' => s'.sig
  | _ => Signals.quiet

/-- The exceptional conditions met in a tick (60_exceptions.md R280, R291). -/
def tickCauses (s : State) : List Cause :=
  if decode (.osv (topOsv s)) = .ok .topRun ∧ ¬ WF s.cfg s.now then [.unreachable]
  else ((tickOps s).flatMap fun i => causesOf i s.input (tickSignals s)).dedup

/-- The mnemonic of a row, as 30_encoding.md R112 spells it. -/
def mnemonicOf : Instr → String
  | .topReset => "TOP_RESET"
  | .topInert => "TOP_INERT"
  | .topRun => "TOP_RUN"
  | .bsIdle => "BS_IDLE"
  | .bsCancel => "BS_CANCEL"
  | .bsCount => "BS_COUNT"
  | .bsFireDelay => "BS_FIRE_DELAY"
  | .bsFireSample => "BS_FIRE_SAMPLE"
  | .pollOff => "POLL_OFF"
  | .pollCount => "POLL_COUNT"
  | .pollStrobe => "POLL_STROBE"
  | .ssrAbort => "SSR_ABORT"
  | .ssrIdleHold => "SSR_IDLE_HOLD"
  | .ssrStart => "SSR_START"
  | .ssrWait => "SSR_WAIT"
  | .ssrLatchEnd => "SSR_LATCH_END"
  | .ssrSample => "SSR_SAMPLE"
  | .ssrClkEnd => "SSR_CLK_END"
  | .ssrFinish => "SSR_FINISH"
  | .edgeHold => "EDGE_HOLD"
  | .edgeTrack => "EDGE_TRACK"
  | .afrAbort => "AFR_ABORT"
  | .afrIdleHold => "AFR_IDLE_HOLD"
  | .afrStart => "AFR_START"
  | .afrWait => "AFR_WAIT"
  | .afrEdgeIgnored => "AFR_EDGE_IGNORED"
  | .afrSample => "AFR_SAMPLE"
  | .afrFinish => "AFR_FINISH"
  | .handNop => "HAND_NOP"
  | .handWrite => "HAND_WRITE"
  | .handTake => "HAND_TAKE"
  | .handOverrun => "HAND_OVERRUN"
  | .handTakeWrite => "HAND_TAKE_WRITE"
  | .sdIdleHold => "SD_IDLE_HOLD"
  | .sdTake => "SD_TAKE"
  | .sdSkip => "SD_SKIP"
  | .sdReport => "SD_REPORT"
  | .sdReportWait => "SD_REPORT_WAIT"
  | .sdSync => "SD_SYNC"
  | .sdSyncWait => "SD_SYNC_WAIT"
  | .evReport _ _ => "EV_REPORT"
  | .evSync => "EV_SYNC"

/-- One hexadecimal digit. -/
def hexDigit (n : Nat) : Char := "0123456789ABCDEF".toList.getD n '0'

/-- Four hexadecimal digits. -/
def hex4 (v : BitVec 16) : String :=
  let n := v.toNat
  String.ofList [hexDigit (n / 4096), hexDigit (n / 256 % 16), hexDigit (n / 16 % 16), hexDigit (n % 16)]

/-- A bit as a digit. -/
def bitDigit (b : Bool) : String := if b then "1" else "0"

/-- A number in hexadecimal with no leading zero, in at most `fuel` digits. -/
def hexChars : Nat → Nat → List Char
  | 0, _ => []
  | fuel + 1, n => (if n < 16 then [] else hexChars fuel (n / 16)) ++ [(hexDigit (n % 16)).toLower]

/-- A number as the end states of 95_test_vectors.md section 5 write it: a digit, or hexadecimal from ten on. -/
def numText (n : Nat) : String := if n < 10 then toString n else "0x" ++ String.ofList (hexChars 8 n)

/-- A state code in binary, highest bit first. -/
def codeText {w : Nat} (v : BitVec w) : String :=
  "0b" ++ String.ofList ((List.range w).reverse.map fun i => if v.getLsbD i then '1' else '0')

/-- The fields of a state by the names of 10_state.md R31 to R41, in that order, each with its value. The rule gives no form
for a value; the end states of 95_test_vectors.md section 5 write state codes in binary and other values as `numText` does
(DEDUCED, log 24). -/
def fieldTexts (r : Regs) : List (String × String) :=
  [("bs_busy", bitDigit r.bsBusy), ("bs_kind", bitDigit (kindBit r.bsKind)), ("bs_rem", numText r.bsRem.toNat),
   ("bs_fb", bitDigit r.bsFb), ("poll_cnt", numText r.pollCnt.toNat), ("ssr_phase", codeText r.ssrPhase),
   ("ssr_bit", numText r.ssrBit.toNat), ("ssr_acc", numText r.ssrAcc.toNat), ("edge_prev", bitDigit r.edgePrev),
   ("afr_sampling", bitDigit r.afrSampling), ("afr_bit", numText r.afrBit.toNat), ("afr_acc", numText r.afrAcc.toNat),
   ("sync_out", bitDigit r.syncOut), ("hand_full", bitDigit r.handFull), ("hand_word", numText r.handWord.toNat),
   ("sd_state", codeText r.sdState), ("sd_cur", numText r.sdCur.toNat), ("sd_chg", numText r.sdChg.toNat),
   ("sd_pos", numText r.sdPos.toNat), ("prev_word", numText r.prevWord.toNat), ("overrun", bitDigit r.overrun)]

/-- `S_t.field = value`, 30_encoding.md R115. -/
def fieldLine (t : Nat) (f : String × String) : String := "S_" ++ toString t ++ "." ++ f.1 ++ " = " ++ f.2

/-- A state written as its fields, 30_encoding.md R115. -/
def stateLines (t : Nat) (r : Regs) : List String := (fieldTexts r).map (fieldLine t)

/-- `t: MNEMONIC`, 30_encoding.md R115. -/
def opLine (t : Nat) (i : Instr) : String := toString t ++ ": " ++ mnemonicOf i

/-- `t: EV REPORT id=0xNNNN pressed=b` or `t: EV SYNC`, 30_encoding.md R115. -/
def eventLine (t : Nat) (w : EventWord) : String :=
  match decodeEvent w with
  | .ok (.evReport p id) => toString t ++ ": EV REPORT id=0x" ++ hex4 id ++ " pressed=" ++ bitDigit p
  | .ok .evSync => toString t ++ ": EV SYNC"
  | _ => toString t ++ ": EV reserved"

end Sys2Proof.Machine
end

