-- ==== Sys2Proof/Machine/Step.lean ====
section
/-! DEFINITION. One step of the machine: one tick (00_scope.md R8). -/

namespace Sys2Proof.Machine

/-- One tick. The model refuses platform parameters out of range and a change of CFG in a tick with `rst` = 0
(44_top_control.md R259). Otherwise TOP's operation, the one its OSV selects, runs (30_encoding.md R100), and in a
TOP_RUN tick it runs the operations of the other seven units (44_top_control.md R255); then the tick boundary
(00_scope.md R8). -/
def step (s : State) : Host.Outcome State Fault Refusal :=
  if ¬ s.plat.InRange then .refused .platformOutOfRange
  else if s.input.rst = false ∧ s.cfgIn ≠ s.cfg then .refused .cfgChangedWithoutReset
  else
    match decode (.osv (topOsv s)) with
    | .error _ => .fault .unreachable
    | .ok i =>
      match exec i s with
      | .next s' => .next (tickBoundary s')
      | .fault f => .fault f
      | .refused r => .refused r

/-- The machine whose next tick runs the operation of an opcode-table word. The block loads and fetches no program: a
tick's operations are selected by the record, the state codes and the inputs, so these are what is set (log 5). A word
that no row claims changes nothing. -/
def State.withFetchWord (s : State) (nbits w : Nat) : State :=
  match decodeTableWord nbits w with
  | some i => s.selecting i
  | none => s

end Sys2Proof.Machine
end

