-- ==== Sys2Proof/Machine/CfgImage.lean ====
section
/-! DEFINITION. The configuration record as the packed image of 30_encoding.md R106: 32-bit words CFG0, CFG1, CFG2 and
MAPW_0 to MAPW_15. -/

namespace Sys2Proof.Machine

/-- The packed image, 30_encoding.md R106. -/
structure CfgImage where
  cfg0 : BitVec 32
  cfg1 : BitVec 32
  cfg2 : BitVec 32
  mapw : Vector (BitVec 32) 16
deriving DecidableEq, Repr

/-- MODE of its bit (10_state.md R22). -/
def modeOfBit (b : Bool) : Mode := if b then .async else .sync

/-- START_EDGE of its bit (10_state.md R27). -/
def edgeOfBit (b : Bool) : StartEdge := if b then .rising else .falling

/-- The word MAPW_p of an entry: reserved, idx, id (30_encoding.md R106). -/
def MapEntry.word (e : MapEntry) : BitVec 32 := (e.rsvd ++ e.idx ++ e.id : BitVec (12 + 4 + 16))

/-- The entry of a word MAPW_p (30_encoding.md R106). -/
def entryOfWord (w : BitVec 32) : MapEntry where
  idx := w.extractLsb' 16 4
  id := w.extractLsb' 0 16
  rsvd := w.extractLsb' 20 12

/-- Packing, 30_encoding.md R106. -/
def packCfg (c : Cfg) : CfgImage where
  cfg0 := (c.rsvd0 ++ BitVec.ofBool c.handshake ++ BitVec.ofBool (edgeBit c.startEdge) ++ c.mapLen ++ c.width ++
    BitVec.ofBool (modeBit c.mode) : BitVec (19 + 1 + 1 + 5 + 5 + 1))
  cfg1 := c.pollPeriod
  cfg2 := (c.rsvd2 ++ c.bitPeriod : BitVec (16 + 16))
  mapw := ⟨⟨c.map.toList.map MapEntry.word⟩, by simp⟩

/-- Unpacking, 30_encoding.md R106; the reserved bits are kept, and CfgValid reads them (44_top_control.md R250,
condition 6). -/
def unpackCfg (g : CfgImage) : Cfg where
  mode := modeOfBit (g.cfg0.getLsbD 0)
  width := g.cfg0.extractLsb' 1 5
  mapLen := g.cfg0.extractLsb' 6 5
  map := ⟨⟨g.mapw.toList.map entryOfWord⟩, by simp⟩
  pollPeriod := g.cfg1
  bitPeriod := g.cfg2.extractLsb' 0 16
  startEdge := edgeOfBit (g.cfg0.getLsbD 11)
  handshake := g.cfg0.getLsbD 12
  rsvd0 := g.cfg0.extractLsb' 13 19
  rsvd2 := g.cfg2.extractLsb' 16 16

end Sys2Proof.Machine
end

