-- ==== Sys2Proof/Machine/Expose.lean ====
section
/-! DEFINITION. What a model exposes of each tick and of a run (44_top_control.md R257), and that a tick which ends in a fault
defines no output (R252). -/

namespace Sys2Proof.Machine

/-- What a model exposes of a tick (44_top_control.md R257): its outputs, the event transferred in it, and `S_{t+1}`. -/
structure TickView where
  outputs : Outputs
  event   : Option EventWord
  next    : State
deriving DecidableEq, Repr

/-- What the tick exposes, computed from `S_t`, `I_t` and CFG (44_top_control.md R257). Nothing where it raises a fault: no
output of that tick is defined (R252). Nothing where the model refuses it: that is no tick of the block (R259). -/
def tickView (s : State) : Option TickView :=
  match step s with
  | .next t => some ⟨portLevels s, transferred s, t⟩
  | .fault _ => none
  | .refused _ => none

/-- The outputs of the tick (10_state.md R42), where it defines any (44_top_control.md R252). -/
def outputs (s : State) : Option Outputs := (tickView s).map TickView.outputs

/-- One tick in the trace syntax of 30_encoding.md R115: the state it starts in, and, where it exposes anything, the operations
it performs and the event it transfers, if any. -/
def tickLines (s : State) : List String :=
  stateLines s.tick s.now ++
    match tickView s with
    | some v => (tickOps s).map (opLine s.tick) ++ (v.event.map (eventLine s.tick)).toList
    | none => []

/-- What a run yields (44_top_control.md R257): the output sequence of its ticks, the event words transferred, each with its
tick, and the final state, or the fault or the refusal that ends it (R252, R259). -/
structure RunView where
  outputs : List Outputs
  trace   : List (Nat × EventWord)
  final   : Result
deriving Repr

/-- A run of `n` ticks (44_top_control.md R257, R258). A tick that ends the run adds no output (R252). -/
def runView : Nat → State → RunView
  | 0, s => ⟨[], [], .next s⟩
  | n + 1, s =>
    match step s with
    | .next t =>
      let r := runView n t
      ⟨portLevels s :: r.outputs, ((transferred s).map fun w => (s.tick, w)).toList ++ r.trace, r.final⟩
    | .fault f => ⟨[], [], .fault f⟩
    | .refused x => ⟨[], [], .refused x⟩

end Sys2Proof.Machine
end

