-- ==== Sys2Proof/Safety.lean ====
section
/-! DEFINITION. What a safe run is, in the terms the statements use: well-formed registers (10_state.md R47) under
parameters the model accepts (44_top_control.md R259), and a tick in which the owner keeps the record (70_reset_and_hazards.md
R311). -/

namespace Sys2Proof.Machine

/-- The model accepts the tick: parameters in range, and no change of the record but in a reset (44_top_control.md
R259). -/
abbrev State.Accepted (s : State) : Prop := s.plat.InRange ∧ (s.input.rst = false → s.cfgIn = s.cfg)

/-- The registers are well-formed (10_state.md R47). -/
abbrev State.Ok (s : State) : Prop := WF s.cfg s.now

/-- A normal tick of well-formed registers: accepted, `rst` = 0 and a valid record (44_top_control.md R255). -/
abbrev State.Running (s : State) : Prop :=
  s.Accepted ∧ s.input.rst = false ∧ s.cfg.Valid s.plat ∧ s.Ok

/-- A machine between two ticks: nothing under construction, no wire driven. -/
abbrev State.Settled (s : State) : Prop := s.nxt = s.now ∧ s.sig = Signals.quiet

/-- SYNC is at rest unless the HANDSHAKE variant drives it (42_async_reader.md R191, 10_state.md R43). -/
abbrev State.SyncLineOk (s : State) : Prop :=
  s.now.syncOut = true → s.cfg.mode = .async ∧ s.cfg.handshake = true

/-- A block whose record is not valid holds `S_rst(CFG)` (44_top_control.md R254). -/
abbrev State.InertAtRest (s : State) : Prop := ¬ s.cfg.Valid s.plat → s.now = Regs.reset s.cfg

/-- No accumulator has a bit set that the frame has not captured yet: bits `ssr_bit` and up of `ssr_acc`, and bits `afr_bit` and
up of `afr_acc`, are 0 (41_sync_reader.md R160). WF does not say it; every step keeps it. -/
abbrev State.AccumulatorsOk (s : State) : Prop :=
  FitsIn s.now.ssrBit.toNat s.now.ssrAcc ∧ FitsIn s.now.afrBit.toNat s.now.afrAcc

/-- The registers of the readers: of BS, POLL, SSR, EDGE and AFR (44_top_control.md R256). -/
abbrev SameReaders (a b : Regs) : Prop :=
  (a.bsBusy = b.bsBusy ∧ a.bsKind = b.bsKind ∧ a.bsRem = b.bsRem ∧ a.bsFb = b.bsFb) ∧ a.pollCnt = b.pollCnt ∧
  (a.ssrPhase = b.ssrPhase ∧ a.ssrBit = b.ssrBit ∧ a.ssrAcc = b.ssrAcc) ∧ a.edgePrev = b.edgePrev ∧
  (a.afrSampling = b.afrSampling ∧ a.afrBit = b.afrBit ∧ a.afrAcc = b.afrAcc ∧ a.syncOut = b.syncOut)

/-- The operation that a unit's OSV selects. -/
def selectedOp (u : UnitName) (s : State) : Option Instr :=
  match decode (.osv (osvOf u s)) with
  | .ok i => some i
  | .error _ => none

/-- Units in order, each performing with `exec` the operation its OSV selects (30_encoding.md R100). -/
def performUnits : List UnitName → State → Result
  | [], s => .next s
  | u :: us, s =>
    match selectedOp u s with
    | none => .fault .unreachable
    | some i =>
      match exec i s with
      | .next s' => performUnits us s'
      | .fault f => .fault f
      | .refused r => .refused r

/-- A stimulus program after `k` ticks. -/
def stimAfter : Nat → List StimRun → List StimRun
  | 0, l => l
  | k + 1, l => stimAfter k (stimRest l)

/-- The environment `k` ticks on: the inputs of that tick are those of this state, whatever the block does meanwhile
(10_state.md R30: the inputs are the environment's own). -/
def State.envAfter (k : Nat) (s : State) : State := { s with stim := stimAfter k s.stim, tick := s.tick + k }

/-- For `n` ticks the owner neither resets the block nor presents another record. -/
abbrev State.Undisturbed (n : Nat) (s : State) : Prop :=
  ∀ k < n, (s.envAfter k).input.rst = false ∧ (s.envAfter k).cfgIn = s.cfg

/-- For `n` ticks the owner does not abort. -/
abbrev State.NoAbort (n : Nat) (s : State) : Prop := ∀ k < n, (s.envAfter k).input.abort = false

/-- For `n` ticks the sink is ready. -/
abbrev State.SinkReady (n : Nat) (s : State) : Prop := ∀ k < n, (s.envAfter k).input.sinkReady = true

/-- The word that a reader completes in the tick, if one does (41_sync_reader.md R162, 42_async_reader.md R190). -/
def completedWord (s : State) : Option ButtonWord :=
  if s.now.bsBusy = true ∧ s.now.bsRem = 1#16 ∧ s.input.abort = false then
    if s.now.ssrPhase = phClkTail then some s.now.ssrAcc
    else if s.now.afrSampling = true ∧ s.now.afrBit.toNat = s.cfg.w - 1 then
      some (orBit s.now.afrAcc (capture s.input.dataIn s.input.dataFault s.now.bsFb) (s.cfg.w - 1))
    else none
  else none

/-- The events that the SD still has to transfer for the frame it holds: from its map position on, then the SYNC
(43_state_differ.md R216, R217); none while it is IDLE. -/
def remainingEvents (s : State) : List Event :=
  if s.now.sdState = sdsEmit then
    (s.cfg.activeMap.drop s.now.sdPos.toNat).filterMap (reportOf (s.now.sdCur ^^^ s.now.sdChg) s.now.sdCur) ++ [.sync]
  else if s.now.sdState = sdsSync then [.sync]
  else []

/-- The event words of a sink trace, without their ticks. -/
def traceWords (s : State) : List EventWord := s.trace.map Prod.snd

end Sys2Proof.Machine
end

