-- ==== Sys2Proof/Certificates/Slice0/Obligations.lean ====
section
/-! DEFINITION. The statements about the model, each `def Obligations.<Name> : Prop`, listed in OBLIGATIONS.json. An
operation of a unit reads the record `now` (`S_t`), the inputs and the wires, and writes the record `nxt` (`S_{t+1}`) and
the wires (00_scope.md R10); `step` is one tick. An equation `exec i s = .next t` with `t` written out is the operation's
result and its frame at once: every field not named is as it was. -/

open Sys2Proof Sys2Proof.Machine

/-! ### Encoding -/

/-- Every operation and every event word is read back from its encoding, every event word that decodes is the encoding of
what it decodes to, and an OSV decodes only to the operation of a row whose pattern it matches under the row's mask, the
row's pattern being that operation's encoding (30_encoding.md R100, R104, R112). -/
def Obligations.DecodeAndEncodeAgree : Prop :=
  (∀ i : Instr, i.wellFormed = true → decode (encode i) = .ok i) ∧
  (∀ (w : EventWord) (i : Instr), decode (.ev w) = .ok i → encode i = .ev w) ∧
  (∀ (v : Osv) (i : Instr), decode (.osv v) = .ok i →
    ∃ r ∈ operationMap, r.instr = i ∧ v &&& r.mask = r.pattern ∧ encode i = .osv r.pattern)

/-- No OSV matches two rows of the operation map, of one unit or of two; over every well-formed record, whatever the inputs
and the wires, the vector of each unit matches exactly one row; `take` implies `hand_full`; and a unit whose vector matches
no one row raises UNREACHABLE (30_encoding.md R103). -/
def Obligations.ExactlyOneRowOfEachUnitMatches : Prop :=
  (∀ (v : Osv) (a b : Row), a ∈ operationMap → b ∈ operationMap → v &&& a.mask = a.pattern → v &&& b.mask = b.pattern →
    a = b) ∧
  (∀ (s : State) (u : UnitName), WF s.cfg s.now →
    ∃ r ∈ operationMap, osvOf u s &&& r.mask = r.pattern ∧ decode (.osv (osvOf u s)) = .ok r.instr) ∧
  (∀ s : State, take s = true → s.now.handFull = true) ∧
  (∀ (s : State) (u : UnitName) (e : Reject), u ≠ .top → decode (.osv (osvOf u s)) = .error e →
    runUnit u s = .fault .unreachable)

/-- One word of every unit and one of each event format, written out from 30_encoding.md R100, R104 and R112, decodes to
its operation. -/
def Obligations.DecodesAWordOfEveryUnit : Prop :=
  decode (.osv 0b000_0000_0010#11) = .ok .topRun ∧
  decode (.osv 0b001_0011_0001#11) = .ok .bsFireSample ∧
  decode (.osv 0b010_0000_0001#11) = .ok .pollStrobe ∧
  decode (.osv 0b011_1011_0001#11) = .ok .ssrSample ∧
  decode (.osv 0b100_0001_1110#11) = .ok .edgeTrack ∧
  decode (.osv 0b101_1000_1100#11) = .ok .afrEdgeIgnored ∧
  decode (.osv 0b110_0001_0011#11) = .ok .handTakeWrite ∧
  decode (.osv 0b111_0001_1010#11) = .ok .sdReportWait ∧
  decode (.ev 0b01_0000_0000_0001_0000#18) = .ok (.evReport true 0x0010#16) ∧
  decode (.ev 0b10_0000_0000_0000_0000#18) = .ok .evSync

/-- The event word (30_encoding.md R104): bit 17 the kind, bit 16 pressed, bits 15..0 the identifier; a SYNC word is exactly
0x20000; a word with EV[17] = 1 and any other bit set is reserved, and `ev_word` is never one; while `ev_valid` = 0 it is
0. -/
def Obligations.EventWordFormat : Prop :=
  (∀ w : EventWord,
    decode (.ev w) =
      if w.getLsbD 17 = true then (if w = 0x20000#18 then .ok .evSync else .error (.reservedEvent w))
      else .ok (.evReport (w.getLsbD 16) (w.extractLsb' 0 16))) ∧
  encode .evSync = .ev 0x20000#18 ∧
  (∀ s : State, ¬ ((evWord s).getLsbD 17 = true ∧ evWord s ≠ 0x20000#18)) ∧
  (∀ s : State, evValid s = false → evWord s = 0#18)

/-- The packed configuration image: where each field of the record lies, that image and record determine each other, and
that a reserved bit that is not 0 makes the record invalid (30_encoding.md R106). That the record keeps the reserved bits as
fields, so that packing gives back every image, is the model's reading (log 14). -/
def Obligations.ConfigImageLayout : Prop :=
  (∀ c : Cfg, unpackCfg (packCfg c) = c) ∧ (∀ g : CfgImage, packCfg (unpackCfg g) = g) ∧
  (∀ (c : Cfg) (g : CfgImage), g = packCfg c →
    g.cfg0.getLsbD 0 = decide (c.mode = .async) ∧ g.cfg0.extractLsb' 1 5 = c.width ∧ g.cfg0.extractLsb' 6 5 = c.mapLen ∧
    g.cfg0.getLsbD 11 = decide (c.startEdge = .rising) ∧ g.cfg0.getLsbD 12 = c.handshake ∧ g.cfg1 = c.pollPeriod ∧
    g.cfg2.extractLsb' 0 16 = c.bitPeriod ∧
    ∀ (p : Nat) (h : p < 16), (g.mapw[p]).extractLsb' 0 16 = (c.map[p]).id ∧ (g.mapw[p]).extractLsb' 16 4 = (c.map[p]).idx) ∧
  (∀ (p : Platform) (g : CfgImage),
    g.cfg0.extractLsb' 13 19 ≠ 0#19 ∨ g.cfg2.extractLsb' 16 16 ≠ 0#16 ∨
      (∃ (k : Nat) (h : k < 16), (g.mapw[k]).extractLsb' 20 12 ≠ 0#12) →
    ¬ (unpackCfg g).Valid p)

/-- The input vector packs and unpacks without loss, `data_in` in bit 0 to `rst` in bit 4 (30_encoding.md R105). -/
def Obligations.InputVectorPacks : Prop :=
  (∀ i : Inputs, Inputs.ofIv i.toIv = i ∧ i.toIv.getLsbD 0 = i.dataIn ∧ i.toIv.getLsbD 1 = i.dataFault ∧
    i.toIv.getLsbD 2 = i.sinkReady ∧ i.toIv.getLsbD 3 = i.abort ∧ i.toIv.getLsbD 4 = i.rst) ∧
  (∀ v : BitVec 5, (Inputs.ofIv v).toIv = v)

/-! ### Reset -/

/-- `S_rst(CFG)` for every record: 0 in every field but `edge_prev`, which is 1 exactly for FALLING, and in the first tick
after reset LATCH, CLOCK, SYNC and `ev_valid` are 0 (10_state.md R45). -/
def Obligations.ResetRecordValues : Prop :=
  (∀ c : Cfg, Regs.reset c =
    { bsBusy := false, bsKind := .delay, bsRem := 0#16, bsFb := false, pollCnt := 0#32, ssrPhase := 0b0000#4,
      ssrBit := 0#5, ssrAcc := 0#16, edgePrev := decide (c.startEdge = .falling), afrSampling := false, afrBit := 0#5,
      afrAcc := 0#16, syncOut := false, handFull := false, handWord := 0#16, sdState := 0b00#2, sdCur := 0#16,
      sdChg := 0#16, sdPos := 0#5, prevWord := 0#16, overrun := false }) ∧
  (∀ s : State, s.now = Regs.reset s.cfg →
    (portLevels s).latchOut = false ∧ (portLevels s).clockOut = false ∧ (portLevels s).syncOut = false ∧
      (portLevels s).evValid = false) ∧
  (∀ (p : Platform) (c : Cfg), (State.resetWith p c).now = Regs.reset c)

/-- `S_rst(CFG)` satisfies WF for every record (10_state.md R47), and the machine of `State.resetWith`, of which
`State.reset` is one (for the parameters and the record that logs 3 and 4 choose), is settled, with SYNC at rest and, if its
record is not valid, at `S_rst`. -/
def Obligations.ResetMeetsTheInvariants : Prop :=
  (∀ c : Cfg, WF c (Regs.reset c)) ∧
  (∀ (p : Platform) (c : Cfg),
    (State.resetWith p c).Ok ∧ (State.resetWith p c).Settled ∧ (State.resetWith p c).SyncLineOk ∧
      (State.resetWith p c).InertAtRest) ∧
  State.reset = State.resetWith resetPlatform resetCfg

/-! ### The tick -/

/-- A step runs the operation that TOP's OSV selects, which is TOP_RESET exactly with `rst` = 1, else TOP_RUN exactly with a
valid record, else TOP_INERT; and then the tick boundary: `S_{t+1}` becomes current, the wires fall,
the stimulus moves on one tick, the tick number rises; a fault of the operation is the step's (30_encoding.md R100,
00_scope.md R8). That the record under construction, the wires and the stimulus are fields of the state is the model's choice
(logs 1, 2, 9). -/
def Obligations.StepRunsTheSelectedOperation : Prop :=
  ∀ (s : State) (i : Instr), s.Accepted → decode (.osv (topOsv s)) = .ok i →
    i = (if s.input.rst = true then .topReset else if s.cfgIn.Valid s.plat then .topRun else .topInert) ∧
    (∀ t, exec i s = .next t →
      step s = .next { t with
        now := t.nxt, sig := ⟨false, false, false, false, false, 0#16⟩, stim := stimRest t.stim, tick := t.tick + 1 }) ∧
    (∀ f, exec i s = .fault f → step s = .fault f)

/-- The model refuses platform parameters out of range, and a record presented in a tick with `rst` = 0 that is not the one
held; an invalid record is not refused (44_top_control.md R259). That a refused instance is one whose every step is refused,
and that the owner presents a record with the inputs of a tick, are the model's readings (logs 8 and 7). -/
def Obligations.StepRefusesBadParametersAndRecordChanges : Prop :=
  ∀ s : State,
    (¬ (1 ≤ s.plat.ticksPerMs ∧ 1 ≤ s.plat.tu ∧ s.plat.tu ≤ 5461) → step s = .refused .platformOutOfRange) ∧
    (s.plat.InRange → s.input.rst = false → s.cfgIn ≠ s.cfg → step s = .refused .cfgChangedWithoutReset) ∧
    (s.plat.InRange → s.input.rst = false → s.cfgIn = s.cfg → ¬ s.cfg.Valid s.plat →
      step s = .next (tickBoundary { s with nxt := Regs.reset s.cfg }))

/-- TOP_RESET and TOP_INERT as operations: both write the whole record at its reset value, TOP_RESET for the record
presented in the tick, and nothing transfers (44_top_control.md R253, R254). -/
def Obligations.TopResetAndInertWriteTheResetRecord : Prop :=
  ∀ s : State,
    exec .topReset s = .next { s with cfg := s.cfgIn, nxt := Regs.reset s.cfgIn } ∧
    exec .topInert s = .next { s with nxt := Regs.reset s.cfg }

/-- A tick with `rst` = 1 leaves `S_rst` of the record presented, whatever the state was, and transfers nothing
(44_top_control.md R253, 60_exceptions.md R290 rank 1). -/
def Obligations.ResetTickResetsEverything : Prop :=
  ∀ s : State, s.plat.InRange → s.input.rst = true →
    step s = .next
      { plat := s.plat, cfg := s.cfgIn, now := Regs.reset s.cfgIn, nxt := Regs.reset s.cfgIn, sig := Signals.quiet,
        stim := stimRest s.stim, tick := s.tick + 1, trace := s.trace } ∧
    evValid s = false

/-- A tick with `rst` = 0 and an invalid record leaves `S_rst`, transfers nothing and reports `st_cfg_err`
(44_top_control.md R254). -/
def Obligations.InertTickStaysAtReset : Prop :=
  ∀ s : State, s.Accepted → s.input.rst = false → ¬ s.cfg.Valid s.plat →
    step s = .next
      { plat := s.plat, cfg := s.cfg, now := Regs.reset s.cfg, nxt := Regs.reset s.cfg, sig := Signals.quiet,
        stim := stimRest s.stim, tick := s.tick + 1, trace := s.trace } ∧
    evValid s = false ∧ (portLevels s).status.cfgErr = true

/-- TOP_RUN completes on every well-formed record: each of the seven units, in order, performs the operation its OSV selects
(there is one), and TOP_RUN's result is theirs. It writes neither the current record, the parameters, the stimulus nor the
tick number (44_top_control.md R255, 30_encoding.md R100, R101, R103). -/
def Obligations.TopRunPerformsEveryUnit : Prop :=
  ∀ s : State, WF s.cfg s.now →
    ∃ t, exec .topRun s = .next t ∧ performUnits [.bs, .poll, .ssr, .edge, .afr, .hand, .sd] (beginTick s) = .next t ∧
      t.now = s.now ∧ t.cfg = s.cfg ∧ t.plat = s.plat ∧ t.stim = s.stim ∧ t.tick = s.tick

/-- A TOP_RUN tick of a record that fails WF raises UNREACHABLE and performs nothing (44_top_control.md R251). -/
def Obligations.IllFormedRecordFaults : Prop :=
  ∀ s : State, ¬ WF s.cfg s.now →
    exec .topRun s = .fault .unreachable ∧
    (s.Accepted → s.input.rst = false → s.cfg.Valid s.plat → step s = .fault .unreachable)

/-- The wires after a TOP_RUN tick are the formulas of 44_top_control.md R255, steps 1 to 6. -/
def Obligations.WiresOfATickFollowTheirFormulas : Prop :=
  ∀ s : State, WF s.cfg s.now → ∃ t, exec .topRun s = .next t ∧
    t.sig.bsFire = (s.now.bsBusy && s.now.bsRem == 1#16 && !s.input.abort) ∧
    (t.sig.bsFire = true → s.now.bsKind = .sample →
      t.sig.bsVal = if s.input.dataFault then s.now.bsFb else s.input.dataIn) ∧
    t.sig.pollStrobe = (decide (s.cfg.mode = .sync) && s.now.pollCnt == s.cfg.pollPeriod - 1#32) ∧
    t.sig.startEdge = (decide (s.cfg.mode = .async) && !s.input.dataFault &&
      ((decide (s.cfg.startEdge = .falling) && s.now.edgePrev && !s.input.dataIn) ||
        (decide (s.cfg.startEdge = .rising) && !s.now.edgePrev && s.input.dataIn))) ∧
    t.sig.write = (completedWord s).isSome ∧
    (∀ w, completedWord s = some w → t.sig.hwWord = w)

/-- No operation writes the current record, the platform parameters, the stimulus or the tick number: what a tick reads
stays as it was throughout the tick (20_memory.md R85, 00_scope.md R10). -/
def Obligations.NoOperationWritesWhatTheTickReads : Prop :=
  ∀ (i : Instr) (s t : State), exec i s = .next t →
    t.now = s.now ∧ t.plat = s.plat ∧ t.stim = s.stim ∧ t.tick = s.tick

/-! ### The operations, unit by unit -/

/-- BS_IDLE, BS_CANCEL, BS_COUNT, BS_FIRE_DELAY, BS_FIRE_SAMPLE: when each is selected and all it does (40_bit_sampler.md
R131, R135 to R139). -/
def Obligations.BitSamplerOperations : Prop :=
  ∀ s : State,
    (s.now.bsBusy = false → decode (.osv (bsOsv s)) = .ok .bsIdle) ∧
    exec .bsIdle s = .next { s with sig := { s.sig with bsFire := false } } ∧
    (s.now.bsBusy = true → s.input.abort = true → decode (.osv (bsOsv s)) = .ok .bsCancel) ∧
    exec .bsCancel s = .next { s with nxt := { s.nxt with bsBusy := false }, sig := { s.sig with bsFire := false } } ∧
    (s.now.bsBusy = true → s.now.bsRem ≠ 1#16 → s.input.abort = false → decode (.osv (bsOsv s)) = .ok .bsCount) ∧
    exec .bsCount s = .next
      { s with nxt := { s.nxt with bsRem := s.now.bsRem - 1#16 }, sig := { s.sig with bsFire := false } } ∧
    (s.now.bsBusy = true → s.now.bsRem = 1#16 → s.input.abort = false → s.now.bsKind = .delay →
      decode (.osv (bsOsv s)) = .ok .bsFireDelay) ∧
    exec .bsFireDelay s = .next { s with nxt := { s.nxt with bsBusy := false }, sig := { s.sig with bsFire := true } } ∧
    (s.now.bsBusy = true → s.now.bsRem = 1#16 → s.input.abort = false → s.now.bsKind = .sample →
      decode (.osv (bsOsv s)) = .ok .bsFireSample) ∧
    exec .bsFireSample s = .next
      { s with
        nxt := { s.nxt with bsBusy := false }
        sig := { s.sig with bsFire := true, bsVal := if s.input.dataFault then s.now.bsFb else s.input.dataIn } }

/-- POLL_OFF, POLL_COUNT, POLL_STROBE: when each is selected and all it does (41_sync_reader.md R150 to R152). -/
def Obligations.PollTimerOperations : Prop :=
  ∀ s : State,
    (s.cfg.mode = .async → decode (.osv (pollOsv s)) = .ok .pollOff) ∧
    exec .pollOff s = .next
      { s with nxt := { s.nxt with pollCnt := 0#32 }, sig := { s.sig with pollStrobe := false } } ∧
    (s.cfg.mode = .sync → s.now.pollCnt ≠ s.cfg.pollPeriod - 1#32 → decode (.osv (pollOsv s)) = .ok .pollCount) ∧
    exec .pollCount s = .next
      { s with nxt := { s.nxt with pollCnt := s.now.pollCnt + 1#32 }, sig := { s.sig with pollStrobe := false } } ∧
    (s.cfg.mode = .sync → s.now.pollCnt = s.cfg.pollPeriod - 1#32 → decode (.osv (pollOsv s)) = .ok .pollStrobe) ∧
    exec .pollStrobe s = .next
      { s with nxt := { s.nxt with pollCnt := 0#32 }, sig := { s.sig with pollStrobe := true } }

/-- The eight operations of the SyncShiftReader: when each is selected and all it does, the requests with their delays
among it (41_sync_reader.md R154 to R162, 40_bit_sampler.md R132, 43_state_differ.md R210, 30_encoding.md R107). -/
def Obligations.SyncReaderOperations : Prop :=
  ∀ s : State,
    (s.input.abort = true → decode (.osv (ssrOsv s)) = .ok .ssrAbort) ∧
    exec .ssrAbort s = .next { s with nxt := { s.nxt with ssrPhase := 0b0000#4, ssrBit := 0#5, ssrAcc := 0#16 } } ∧
    (s.input.abort = false → s.now.ssrPhase = 0b0000#4 → s.sig.pollStrobe = false →
      decode (.osv (ssrOsv s)) = .ok .ssrIdleHold) ∧
    exec .ssrIdleHold s = .next s ∧
    (s.input.abort = false → s.now.ssrPhase = 0b0000#4 → s.sig.pollStrobe = true →
      decode (.osv (ssrOsv s)) = .ok .ssrStart) ∧
    exec .ssrStart s = .next { s with nxt := { s.nxt with
      ssrPhase := 0b1000#4, ssrBit := 0#5, ssrAcc := 0#16
      bsBusy := true, bsKind := .delay, bsRem := BitVec.ofNat 16 (12 * s.plat.tu), bsFb := false } } ∧
    (s.input.abort = false → s.now.ssrPhase.getLsbD 3 = true → s.sig.bsFire = false →
      decode (.osv (ssrOsv s)) = .ok .ssrWait) ∧
    exec .ssrWait s = .next s ∧
    (s.input.abort = false → s.now.ssrPhase = 0b1000#4 → s.sig.bsFire = true →
      decode (.osv (ssrOsv s)) = .ok .ssrLatchEnd) ∧
    exec .ssrLatchEnd s = .next { s with nxt := { s.nxt with
      ssrPhase := 0b1001#4
      bsBusy := true, bsKind := .sample, bsRem := BitVec.ofNat 16 (6 * s.plat.tu), bsFb := true } } ∧
    (s.input.abort = false → (s.now.ssrPhase = 0b1001#4 ∨ s.now.ssrPhase = 0b1011#4) → s.sig.bsFire = true →
      decode (.osv (ssrOsv s)) = .ok .ssrSample) ∧
    exec .ssrSample s = .next { s with nxt := { s.nxt with
      ssrAcc := s.now.ssrAcc ||| ((BitVec.ofBool (!s.sig.bsVal)).zeroExtend 16 <<< s.now.ssrBit.toNat)
      ssrBit := s.now.ssrBit + 1#5
      ssrPhase := 0b1010#4
      bsBusy := true, bsKind := .delay, bsRem := BitVec.ofNat 16 (6 * s.plat.tu), bsFb := false } } ∧
    (s.input.abort = false → s.now.ssrPhase = 0b1010#4 → s.sig.bsFire = true →
      decode (.osv (ssrOsv s)) = .ok .ssrClkEnd) ∧
    (s.now.ssrBit.toNat = s.cfg.width.toNat →
      exec .ssrClkEnd s = .next { s with nxt := { s.nxt with
        ssrPhase := 0b1100#4
        bsBusy := true, bsKind := .delay, bsRem := BitVec.ofNat 16 (6 * s.plat.tu), bsFb := false } }) ∧
    (s.now.ssrBit.toNat ≠ s.cfg.width.toNat →
      exec .ssrClkEnd s = .next { s with nxt := { s.nxt with
        ssrPhase := 0b1011#4
        bsBusy := true, bsKind := .sample, bsRem := BitVec.ofNat 16 (6 * s.plat.tu), bsFb := true } }) ∧
    (s.input.abort = false → s.now.ssrPhase = 0b1100#4 → s.sig.bsFire = true →
      decode (.osv (ssrOsv s)) = .ok .ssrFinish) ∧
    exec .ssrFinish s = .next { s with
      nxt := { s.nxt with ssrPhase := 0b0000#4, ssrBit := 0#5, ssrAcc := 0#16 }
      sig := { s.sig with write := true, hwWord := s.now.ssrAcc } }

/-- EDGE_HOLD and EDGE_TRACK: when each is selected and all it does (42_async_reader.md R180, R181). -/
def Obligations.EdgeDetectorOperations : Prop :=
  ∀ s : State,
    (s.input.dataFault = true → decode (.osv (edgeOsv s)) = .ok .edgeHold) ∧
    exec .edgeHold s = .next { s with sig := { s.sig with startEdge := false } } ∧
    (s.input.dataFault = false → decode (.osv (edgeOsv s)) = .ok .edgeTrack) ∧
    exec .edgeTrack s = .next { s with
      nxt := { s.nxt with edgePrev := s.input.dataIn }
      sig := { s.sig with startEdge := decide (s.cfg.mode = .async) &&
        ((decide (s.cfg.startEdge = .falling) && s.now.edgePrev && !s.input.dataIn) ||
          (decide (s.cfg.startEdge = .rising) && !s.now.edgePrev && s.input.dataIn)) } }

/-- The seven operations of the AsyncFrameReader: when each is selected and all it does, the requests with their delays and
the handshake toggle among it (42_async_reader.md R184 to R190, 40_bit_sampler.md R132, 43_state_differ.md R210). -/
def Obligations.AsyncReaderOperations : Prop :=
  ∀ s : State,
    (s.input.abort = true → decode (.osv (afrOsv s)) = .ok .afrAbort) ∧
    exec .afrAbort s = .next { s with nxt := { s.nxt with afrSampling := false, afrBit := 0#5, afrAcc := 0#16 } } ∧
    (s.input.abort = false → s.now.afrSampling = false → s.sig.startEdge = false →
      decode (.osv (afrOsv s)) = .ok .afrIdleHold) ∧
    exec .afrIdleHold s = .next s ∧
    (s.input.abort = false → s.now.afrSampling = false → s.sig.startEdge = true →
      decode (.osv (afrOsv s)) = .ok .afrStart) ∧
    exec .afrStart s = .next { s with nxt := { s.nxt with
      afrSampling := true, afrBit := 0#5, afrAcc := 0#16
      bsBusy := true, bsKind := .sample, bsRem := s.cfg.bitPeriod / 2#16, bsFb := false } } ∧
    (s.input.abort = false → s.now.afrSampling = true → s.sig.bsFire = false → s.sig.startEdge = false →
      decode (.osv (afrOsv s)) = .ok .afrWait) ∧
    exec .afrWait s = .next s ∧
    (s.input.abort = false → s.now.afrSampling = true → s.sig.bsFire = false → s.sig.startEdge = true →
      decode (.osv (afrOsv s)) = .ok .afrEdgeIgnored) ∧
    exec .afrEdgeIgnored s = .next s ∧
    (s.input.abort = false → s.now.afrSampling = true → s.sig.bsFire = true →
      s.now.afrBit.toNat ≠ s.cfg.width.toNat - 1 → decode (.osv (afrOsv s)) = .ok .afrSample) ∧
    exec .afrSample s = .next { s with nxt := { s.nxt with
      afrAcc := s.now.afrAcc ||| ((BitVec.ofBool s.sig.bsVal).zeroExtend 16 <<< s.now.afrBit.toNat)
      afrBit := s.now.afrBit + 1#5
      bsBusy := true, bsKind := .sample, bsRem := s.cfg.bitPeriod, bsFb := false } } ∧
    (s.input.abort = false → s.now.afrSampling = true → s.sig.bsFire = true →
      s.now.afrBit.toNat = s.cfg.width.toNat - 1 → decode (.osv (afrOsv s)) = .ok .afrFinish) ∧
    exec .afrFinish s = .next { s with
      nxt := { s.nxt with
        syncOut := if s.cfg.handshake then !s.now.syncOut else s.nxt.syncOut
        afrSampling := false, afrBit := 0#5, afrAcc := 0#16 }
      sig := { s.sig with
        write := true
        hwWord := s.now.afrAcc ||| ((BitVec.ofBool s.sig.bsVal).zeroExtend 16 <<< (s.cfg.width.toNat - 1)) } }

/-- The five operations of the handoff: when each is selected and all it does (43_state_differ.md R211 to R215). -/
def Obligations.HandoffOperations : Prop :=
  ∀ s : State, ∀ taken : Bool, taken = decide (s.now.sdState = 0b00#2 ∧ s.now.handFull = true) →
    (s.sig.write = false → taken = false → decode (.osv (handOsv s)) = .ok .handNop) ∧
    exec .handNop s = .next s ∧
    (s.now.handFull = false → s.sig.write = true → taken = false → decode (.osv (handOsv s)) = .ok .handWrite) ∧
    exec .handWrite s = .next { s with nxt := { s.nxt with handWord := s.sig.hwWord, handFull := true } } ∧
    (s.sig.write = false → taken = true → decode (.osv (handOsv s)) = .ok .handTake) ∧
    exec .handTake s = .next { s with nxt := { s.nxt with handFull := false } } ∧
    (s.now.handFull = true → s.sig.write = true → taken = false → decode (.osv (handOsv s)) = .ok .handOverrun) ∧
    exec .handOverrun s = .next { s with nxt := { s.nxt with overrun := true } } ∧
    (s.sig.write = true → taken = true → decode (.osv (handOsv s)) = .ok .handTakeWrite) ∧
    exec .handTakeWrite s = .next { s with nxt := { s.nxt with handWord := s.sig.hwWord, handFull := true } }

/-- The seven operations of the StateDiffer: when each is selected and all it does, its transfers among it
(43_state_differ.md R221 to R228). `e` is the map entry at `sd_pos`. -/
def Obligations.StateDifferOperations : Prop :=
  ∀ (s : State) (e : MapEntry), e = s.cfg.entry s.now.sdPos.toNat →
    (s.now.sdState = 0b00#2 → s.now.handFull = false → decode (.osv (sdOsv s)) = .ok .sdIdleHold) ∧
    exec .sdIdleHold s = .next s ∧
    (s.now.sdState = 0b00#2 → s.now.handFull = true → decode (.osv (sdOsv s)) = .ok .sdTake) ∧
    exec .sdTake s = .next { s with nxt := { s.nxt with
      sdCur := s.now.handWord, sdChg := s.now.prevWord ^^^ s.now.handWord, sdPos := 0#5
      sdState := if 0 < s.cfg.mapLen.toNat then 0b01#2 else 0b10#2 } } ∧
    (s.now.sdState = 0b01#2 → s.now.sdChg.getLsbD e.idx.toNat = false → decode (.osv (sdOsv s)) = .ok .sdSkip) ∧
    (s.now.sdState = 0b01#2 →
      exec .sdSkip s = .next { s with nxt := { s.nxt with
        sdPos := s.now.sdPos + 1#5
        sdState := if s.now.sdPos.toNat + 1 = s.cfg.mapLen.toNat then 0b10#2 else s.nxt.sdState } }) ∧
    (s.now.sdState = 0b01#2 → s.now.sdChg.getLsbD e.idx.toNat = true → s.input.sinkReady = true →
      decode (.osv (sdOsv s)) = .ok .sdReport) ∧
    (s.now.sdState = 0b01#2 →
      exec .sdReport s = .next { s with
        nxt := { s.nxt with
          sdPos := s.now.sdPos + 1#5
          sdState := if s.now.sdPos.toNat + 1 = s.cfg.mapLen.toNat then 0b10#2 else s.nxt.sdState }
        trace := s.trace ++ [(s.tick, reportWord (s.now.sdCur.getLsbD e.idx.toNat) e.id)] }) ∧
    (s.now.sdState = 0b01#2 → s.now.sdChg.getLsbD e.idx.toNat = true → s.input.sinkReady = false →
      decode (.osv (sdOsv s)) = .ok .sdReportWait) ∧
    exec .sdReportWait s = .next s ∧
    (s.now.sdState = 0b10#2 → s.input.sinkReady = true → decode (.osv (sdOsv s)) = .ok .sdSync) ∧
    exec .sdSync s = .next { s with
      nxt := { s.nxt with prevWord := s.now.sdCur, sdState := 0b00#2 }
      trace := s.trace ++ [(s.tick, 0x20000#18)] } ∧
    (s.now.sdState = 0b10#2 → s.input.sinkReady = false → decode (.osv (sdOsv s)) = .ok .sdSyncWait) ∧
    exec .sdSyncWait s = .next s

/-- The event-word rows: an event word on the port is appended once to the sink trace exactly when the port is open
(`rst` = 0 and a valid record in the tick) and the sink is ready, and changes nothing else (43_state_differ.md R220, R221).
That a row of the event-word format is executed so is the model's reading (log 10). -/
def Obligations.EventWordRowsTransfer : Prop :=
  ∀ (s : State) (pressed : Bool) (id : BitVec 16),
    (s.input.rst = false → s.cfgIn.Valid s.plat → s.input.sinkReady = true →
      exec (.evReport pressed id) s = .next { s with trace := s.trace ++ [(s.tick, reportWord pressed id)] } ∧
      exec .evSync s = .next { s with trace := s.trace ++ [(s.tick, 0x20000#18)] }) ∧
    (¬ (s.input.rst = false ∧ s.cfgIn.Valid s.plat ∧ s.input.sinkReady = true) →
      exec (.evReport pressed id) s = .next s ∧ exec .evSync s = .next s)

/-- The delays that operations request are in 1..65535 and are not cut by the 16-bit field, for parameters in range and a
valid record (30_encoding.md R107). -/
def Obligations.DelayOperandsFit : Prop :=
  ∀ (p : Platform) (c : Cfg), p.InRange → c.Valid p →
    (tLh p).toNat = 12 * p.tu ∧ (tLs p).toNat = 6 * p.tu ∧ (tCh p).toNat = 6 * p.tu ∧ (tCl p).toNat = 6 * p.tu ∧
    1 ≤ (tLh p).toNat ∧ 1 ≤ (tLs p).toNat ∧
    (half c).toNat = c.bitPeriod.toNat / 2 ∧ (c.mode = .async → 1 ≤ (half c).toNat)

/-! ### Invariants of a step -/

/-- Every step keeps WF (10_state.md R47), from every state that satisfies it. -/
def Obligations.StepKeepsWf : Prop :=
  ∀ s t : State, WF s.cfg s.now → step s = .next t → WF t.cfg t.now

/-- Every step leaves a settled machine (the model's own second record and wires, log 1), and keeps SYNC at rest outside the
HANDSHAKE variant and an invalid record's block at `S_rst`. -/
def Obligations.StepKeepsTheLineInvariants : Prop :=
  ∀ s t : State, step s = .next t →
    t.Settled ∧ (s.SyncLineOk → t.SyncLineOk) ∧ (s.InertAtRest → t.InertAtRest)

/-- An accepted tick of a well-formed record completes: no fault is reached (44_top_control.md R252, 60_exceptions.md
R287). -/
def Obligations.WellFormedTicksNeverFault : Prop :=
  ∀ s : State, s.Accepted → WF s.cfg s.now → ∃ t, step s = .next t

/-- UNREACHABLE is raised by a running tick that starts in a record failing WF, and in no run from the reset machine of any
parameters, record and stimulus (60_exceptions.md R287). -/
def Obligations.UnreachableIsNeverRaisedFromReset : Prop :=
  (∀ s : State, s.Accepted → s.input.rst = false → s.cfg.Valid s.plat → ¬ WF s.cfg s.now →
    step s = .fault .unreachable) ∧
  (∀ (p : Platform) (c : Cfg) (stim : List StimRun) (n : Nat) (f : Fault),
    Host.Core.run Sys2Proof.core n { State.resetWith p c with stim := stim } ≠ .fault f)

/-- The pins by mode: their directions; and, in a state that satisfies WF and whose SYNC register is at rest outside the
HANDSHAKE variant (`SyncLineOk`), a pin the mode does not use is driven 0, LATCH and CLOCK in ASYNC mode, SYNC in SYNC mode and
with HANDSHAKE = 0 (10_state.md R43). The SYNC clause is that premise itself: that an unused pin is 0 by these two invariants,
with no gate on the mode, is the model's reading (log 12), and the statements ResetMeetsTheInvariants (O8), StepKeepsWf (O27)
and StepKeepsTheLineInvariants (O28) say that every reached state has them. -/
def Obligations.PinsFollowTheMode : Prop :=
  (pinUse .sync .latch = .output ∧ pinUse .sync .clock = .output ∧ pinUse .sync .data = .input ∧
    pinUse .async .data = .input ∧ pinUse .async .sync = .output) ∧
  ∀ s : State, WF s.cfg s.now → s.SyncLineOk →
    (s.cfg.mode = .async → (portLevels s).latchOut = false ∧ (portLevels s).clockOut = false) ∧
    (s.cfg.mode = .sync ∨ s.cfg.handshake = false → (portLevels s).syncOut = false)

/-- What a tick exposes. A tick that answers a next state t exposes t, the event transferred, and its outputs: LATCH and CLOCK
are 1 exactly in the phases LATCH and CLK_HIGH, SYNC is its register, the event port is `ev_valid` and `ev_word`, and each status
output is its register or the check of the tick's record. A tick that raises a fault defines no output, and neither does a
refused one (10_state.md R34, R37, R42, R44, 44_top_control.md R252, R257). That the tick's record is the one presented in it is
the model's reading (log 7). -/
def Obligations.OutputsFollowTheRegisters : Prop :=
  ∀ s : State,
    (∀ t, step s = .next t → ∃ o, tickView s = some ⟨o, transferred s, t⟩ ∧ outputs s = some o ∧
      o.latchOut = decide (s.now.ssrPhase = 0b1000#4) ∧ o.clockOut = decide (s.now.ssrPhase = 0b1010#4) ∧
      o.syncOut = s.now.syncOut ∧ o.evValid = evValid s ∧ o.evWord = evWord s ∧
      o.status =
        { cfgErr := !decide (s.cfgIn.Valid s.plat), overrun := s.now.overrun, prevWord := s.now.prevWord,
          ssrPhase := s.now.ssrPhase, afrSampling := s.now.afrSampling, sdState := s.now.sdState,
          handFull := s.now.handFull }) ∧
    (∀ f, step s = .fault f → tickView s = none ∧ outputs s = none) ∧
    (∀ r, step s = .refused r → tickView s = none ∧ outputs s = none)

/-! ### What a tick does to each kind of state -/

/-- An abort in a running tick abandons the frame in flight and cancels the delay; no word enters the handoff, which a take
still empties; the poll counter, `edge_prev`, SYNC and `overrun` are as stated; and the StateDiffer, `prev_word`, the sink
trace, the poll counter and `edge_prev` are what the same tick leaves without the abort (60_exceptions.md R286). -/
def Obligations.AbortAbandonsTheFrame : Prop :=
  ∀ s : State, s.Running → s.input.abort = true →
    ∃ t, step s = .next t ∧
      t.now.bsBusy = false ∧ t.now.bsKind = s.now.bsKind ∧ t.now.bsRem = s.now.bsRem ∧ t.now.bsFb = s.now.bsFb ∧
      t.now.ssrPhase = 0b0000#4 ∧ t.now.ssrBit = 0#5 ∧ t.now.ssrAcc = 0#16 ∧
      t.now.afrSampling = false ∧ t.now.afrBit = 0#5 ∧ t.now.afrAcc = 0#16 ∧
      t.now.pollCnt = (if s.cfg.mode = .async ∨ s.now.pollCnt = s.cfg.pollPeriod - 1#32 then 0#32
        else s.now.pollCnt + 1#32) ∧
      t.now.edgePrev = (if s.input.dataFault then s.now.edgePrev else s.input.dataIn) ∧
      t.now.syncOut = s.now.syncOut ∧ t.now.overrun = s.now.overrun ∧ t.now.handWord = s.now.handWord ∧
      t.now.handFull = (s.now.handFull && !decide (s.now.sdState = 0b00#2)) ∧
      t.now.prevWord = (if s.now.sdState = 0b10#2 ∧ s.input.sinkReady = true then s.now.sdCur else s.now.prevWord) ∧
      t.trace = s.trace ++ (if evValid s = true ∧ s.input.sinkReady = true then [(s.tick, evWord s)] else []) ∧
      t.cfg = s.cfg ∧ t.plat = s.plat ∧
      ∀ s' : State, s' = { s with stim := s'.stim } → s'.Running → s'.input = { s.input with abort := false } →
        ∃ t', step s' = .next t' ∧
          t.now.sdState = t'.now.sdState ∧ t.now.sdCur = t'.now.sdCur ∧ t.now.sdChg = t'.now.sdChg ∧
          t.now.sdPos = t'.now.sdPos ∧ t.now.prevWord = t'.now.prevWord ∧ t.trace = t'.trace ∧
          t.now.pollCnt = t'.now.pollCnt ∧ t.now.edgePrev = t'.now.edgePrev

/-- What a running tick leaves in the handoff: a completed word enters it unless it is full and not being taken, when the
word is dropped and `overrun` set; a take alone empties it; `overrun` is sticky (43_state_differ.md R210 to R215,
10_state.md R41). -/
def Obligations.HandoffTick : Prop :=
  ∀ s t : State, s.Running → step s = .next t → ∀ taken : Bool,
    taken = decide (s.now.sdState = 0b00#2 ∧ s.now.handFull = true) →
    (∀ w, completedWord s = some w → (s.now.handFull = false ∨ taken = true) →
      t.now.handFull = true ∧ t.now.handWord = w ∧ t.now.overrun = s.now.overrun) ∧
    (∀ w, completedWord s = some w → s.now.handFull = true → taken = false →
      t.now.handFull = true ∧ t.now.handWord = s.now.handWord ∧ t.now.overrun = true) ∧
    (completedWord s = none →
      t.now.handFull = (s.now.handFull && !taken) ∧ t.now.handWord = s.now.handWord ∧ t.now.overrun = s.now.overrun)

/-- `previous_word` changes in a running tick only by the transfer of a SYNC, to the frame's word (10_state.md R40,
20_memory.md R87, 43_state_differ.md R227). -/
def Obligations.PreviousWordIsWrittenOnlyBySync : Prop :=
  ∀ s t : State, s.Running → step s = .next t →
    t.now.prevWord = if s.now.sdState = 0b10#2 ∧ s.input.sinkReady = true then s.now.sdCur else s.now.prevWord

/-- SYNC toggles in a running tick exactly when the AsyncFrameReader completes a frame with HANDSHAKE = 1, whatever the
handoff then does with the word (42_async_reader.md R191). -/
def Obligations.HandshakeTogglesOncePerFrame : Prop :=
  ∀ s t : State, s.Running → step s = .next t →
    t.now.syncOut =
      (s.now.syncOut ^^ (s.cfg.handshake && s.now.afrSampling && (completedWord s).isSome))

/-- A running tick appends to the sink trace the word on the port, with the tick's number, exactly when `ev_valid` and
`sink_ready` are both 1; no other tick appends anything (43_state_differ.md R221). That the trace is a field of the state is
the model's choice (log 11). -/
def Obligations.TraceGrowsByTheTransferredWord : Prop :=
  ∀ s t : State, step s = .next t →
    t.trace = s.trace ++ (if evValid s = true ∧ s.input.sinkReady = true then [(s.tick, evWord s)] else [])

/-- While an event is presented and not accepted, the same event stays pending (43_state_differ.md R220). -/
def Obligations.PresentedEventIsStable : Prop :=
  ∀ s t : State, s.Running → step s = .next t → (pend s).isSome = true → s.input.sinkReady = false →
    pend t = pend s ∧ t.now.sdState = s.now.sdState ∧ t.now.sdPos = s.now.sdPos

/-- Every word the block transfers is a legal event word: the block never produces a reserved one (30_encoding.md R104,
R109). -/
def Obligations.OnlyLegalWordsAreTransferred : Prop :=
  ∀ s t : State, step s = .next t → ∀ x ∈ t.trace, x ∉ s.trace → ∃ i, decode (.ev x.2) = .ok i

/-- The sample that ends SETTLE or CLK_LOW writes bit `ssr_bit` of the accumulator as `pressed = (sample == 0)`, a faulted
read counting as released, and leaves every other bit; the bit count rises by one (41_sync_reader.md R154, R160,
20_memory.md R73). -/
def Obligations.SyncSampleWritesItsBit : Prop :=
  ∀ s t : State, s.Running → step s = .next t → s.input.abort = false →
    (s.now.ssrPhase = 0b1001#4 ∨ s.now.ssrPhase = 0b1011#4) → s.now.bsRem = 1#16 →
    t.now.ssrBit.toNat = s.now.ssrBit.toNat + 1 ∧ t.now.ssrPhase = 0b1010#4 ∧
    ∀ i < 16, t.now.ssrAcc.getLsbD i =
      if i = s.now.ssrBit.toNat then s.now.ssrAcc.getLsbD i || (!s.input.dataFault && !s.input.dataIn)
      else s.now.ssrAcc.getLsbD i

/-- An asynchronous sample writes bit `afr_bit` as the sampled level, a faulted read counting as released, and leaves every
other bit: in the accumulator for every bit but the last, in the completed word for the last (42_async_reader.md R189,
R190, R193, 20_memory.md R74). -/
def Obligations.AsyncSampleWritesItsBit : Prop :=
  ∀ s t : State, s.Running → step s = .next t → s.input.abort = false → s.now.afrSampling = true →
    s.now.bsRem = 1#16 →
    (s.now.afrBit.toNat < s.cfg.w - 1 →
      t.now.afrSampling = true ∧ t.now.afrBit.toNat = s.now.afrBit.toNat + 1 ∧ completedWord s = none ∧
      ∀ i < 16, t.now.afrAcc.getLsbD i =
        if i = s.now.afrBit.toNat then s.now.afrAcc.getLsbD i || (!s.input.dataFault && s.input.dataIn)
        else s.now.afrAcc.getLsbD i) ∧
    (s.now.afrBit.toNat = s.cfg.w - 1 →
      t.now.afrSampling = false ∧ ∃ w, completedWord s = some w ∧
      ∀ i < 16, w.getLsbD i =
        if i = s.now.afrBit.toNat then s.now.afrAcc.getLsbD i || (!s.input.dataFault && s.input.dataIn)
        else s.now.afrAcc.getLsbD i)

/-- A faulted read hides the level of DATA: two ticks that differ only in `data_in` while `data_fault` = 1 have the same
outcome (40_bit_sampler.md R131, 60_exceptions.md R281). -/
def Obligations.FaultedLevelIsNeverUsed : Prop :=
  ∀ (s : State) (a b : Inputs) (c : Option Cfg) (rest : List StimRun),
    a.dataFault = true → b = { a with dataIn := !a.dataIn } →
    step { s with stim := ⟨a.toIv, 1, c⟩ :: rest } = step { s with stim := ⟨b.toIv, 1, c⟩ :: rest }

/-- The readers never wait for the StateDiffer or the sink: two running ticks with the same record, the same reader registers and
the same inputs but for `sink_ready`, whatever the handoff and the StateDiffer hold, leave the same reader registers
(43_state_differ.md R219). -/
def Obligations.ReadersNeverWaitForTheSink : Prop :=
  ∀ s s' t t' : State, s.Running → s'.Running → s.cfg = s'.cfg → s.plat = s'.plat → SameReaders s.now s'.now →
    { s.input with sinkReady := false } = { s'.input with sinkReady := false } →
    step s = .next t → step s' = .next t' → SameReaders t.now t'.now

/-- In SYNC mode DATA is read for a frame only in the tick that ends SETTLE or CLK_LOW: in any other running tick DATA and
its fault change nothing but `edge_prev` (41_sync_reader.md R158, 20_memory.md R77). -/
def Obligations.DataIsReadOnlyInItsCaptureTick : Prop :=
  ∀ (s ta tb : State) (a b : Inputs) (rest : List StimRun),
    b = { a with dataIn := b.dataIn, dataFault := b.dataFault } →
    s.cfg.mode = .sync → s.cfg.Valid s.plat → a.rst = false →
    ¬ ((s.now.ssrPhase = 0b1001#4 ∨ s.now.ssrPhase = 0b1011#4) ∧ s.now.bsRem = 1#16) →
    step { s with stim := ⟨a.toIv, 1, none⟩ :: rest } = .next ta →
    step { s with stim := ⟨b.toIv, 1, none⟩ :: rest } = .next tb →
    { ta with now := { ta.now with edgePrev := false }, nxt := { ta.nxt with edgePrev := false } } =
      { tb with now := { tb.now with edgePrev := false }, nxt := { tb.nxt with edgePrev := false } }

/-- A LineFault is met in a running tick exactly when `data_fault` = 1, and Overrun exactly when a completed word finds the
handoff full and not being taken (60_exceptions.md R280 codes 1 and 4). That a tick's conditions are listed so is the
model's reading (log 18). -/
def Obligations.LineFaultAndOverrunAreMetAsStated : Prop :=
  ∀ s : State, s.Running →
    (Cause.lineFault ∈ tickCauses s ↔ s.input.dataFault = true) ∧
    (Cause.overrun ∈ tickCauses s ↔
      (completedWord s).isSome = true ∧ s.now.handFull = true ∧ s.now.sdState ≠ 0b00#2)

/-! ### Runs -/

/-- A delay of D ticks: with no abort, reset or change of record, a running delay with `bs_rem` = D counts D, D-1, ..., 1,
stays busy for those ticks, and keeps its kind and fallback (40_bit_sampler.md R133). -/
def Obligations.DelayCountsDownToItsFire : Prop :=
  ∀ (k : Nat) (s : State), s.plat.InRange → s.cfg.Valid s.plat → WF s.cfg s.now → s.now.bsBusy = true →
    k < s.now.bsRem.toNat → s.Undisturbed k → s.NoAbort k →
    ∃ t, Host.Core.run Sys2Proof.core k s = .next t ∧
      t.now.bsBusy = true ∧ t.now.bsRem.toNat + k = s.now.bsRem.toNat ∧ t.now.bsKind = s.now.bsKind ∧
      t.now.bsFb = s.now.bsFb

/-- The poll counter counts modulo P: after `n` undisturbed ticks in SYNC mode it is `(poll_cnt + n) mod P`, whatever the
SyncShiftReader does, so that strobes are P ticks apart (41_sync_reader.md R151, R152, 60_exceptions.md R294). -/
def Obligations.PollCounterCountsModuloThePeriod : Prop :=
  ∀ (n : Nat) (s : State), s.plat.InRange → s.cfg.Valid s.plat → WF s.cfg s.now → s.cfg.mode = .sync →
    s.Undisturbed n →
    ∃ t, Host.Core.run Sys2Proof.core n s = .next t ∧
      t.now.pollCnt.toNat = (s.now.pollCnt.toNat + n) % s.cfg.pollPeriod.toNat

/-- The wires of a synchronous frame, whatever DATA does: started by a strobe in tick t0 and neither aborted nor reset, LATCH is
1 in ticks t0+1 to t0+12*TU, clock pulse i is 1 in the 6*TU ticks after t0+18*TU+12*TU*i, and the frame is in flight in
`S_{t0+1}` to `S_{t0+F}` and over in `S_{t0+F+1}`, F = 18*TU + 12*TU*W (41_sync_reader.md R163, R164). -/
def Obligations.SyncFrameTimeline : Prop :=
  ∀ (s : State) (k tu : Nat), tu = s.plat.tu → s.plat.InRange → s.cfg.Valid s.plat → WF s.cfg s.now →
    s.cfg.mode = .sync → s.now.ssrPhase = 0b0000#4 → s.now.pollCnt = s.cfg.pollPeriod - 1#32 →
    1 ≤ k → k ≤ 18 * tu + 12 * tu * s.cfg.w + 1 → s.Undisturbed k → s.NoAbort k →
    ∃ t, Host.Core.run Sys2Proof.core k s = .next t ∧
      (portLevels t).latchOut = decide (k ≤ 12 * tu) ∧
      (portLevels t).clockOut =
        decide (18 * tu < k ∧ k ≤ 18 * tu + 12 * tu * s.cfg.w ∧ (k - 18 * tu - 1) % (12 * tu) < 6 * tu) ∧
      (t.now.ssrPhase = 0b0000#4 ↔ k = 18 * tu + 12 * tu * s.cfg.w + 1)

/-- What a synchronous frame reads: started by a strobe in tick t0 and neither aborted nor reset, it completes in tick t0+F with
the word whose bit i, for i < W, is 1 exactly when DATA was read 0 without a fault in tick t0+18*TU+12*TU*i, and whose other
bits are 0 (41_sync_reader.md R154, R163, R164, 20_memory.md R73). -/
def Obligations.SyncWordIsTheSampledWire : Prop :=
  ∀ (s : State) (tu f : Nat), tu = s.plat.tu → f = 18 * tu + 12 * tu * s.cfg.w → s.plat.InRange → s.cfg.Valid s.plat →
    WF s.cfg s.now → s.cfg.mode = .sync → s.now.ssrPhase = 0b0000#4 → s.now.pollCnt = s.cfg.pollPeriod - 1#32 →
    s.Undisturbed (f + 1) → s.NoAbort (f + 1) →
    ∃ t w, Host.Core.run Sys2Proof.core f s = .next t ∧ completedWord t = some w ∧
      ∀ i < 16, w.getLsbD i =
        (decide (i < s.cfg.w) && !(s.envAfter (18 * tu + 12 * tu * i)).input.dataFault &&
          !(s.envAfter (18 * tu + 12 * tu * i)).input.dataIn)

/-- An asynchronous frame takes exactly HALF + (W-1)*BIT_PERIOD ticks whatever DATA does: started by an edge in tick te and
neither aborted nor reset, it is in flight up to `S_{te+HALF+(W-1)*B}` and over in the next state (42_async_reader.md R192,
R195). -/
def Obligations.AsyncFrameTakesItsTime : Prop :=
  ∀ (s : State) (k f : Nat), f = s.cfg.bitPeriod.toNat / 2 + (s.cfg.w - 1) * s.cfg.bitPeriod.toNat → s.plat.InRange →
    s.cfg.Valid s.plat → WF s.cfg s.now → s.cfg.mode = .async → s.now.afrSampling = false → s.input.dataFault = false →
    s.now.edgePrev = decide (s.cfg.startEdge = .falling) → s.input.dataIn = decide (s.cfg.startEdge = .rising) →
    1 ≤ k → k ≤ f + 1 → s.Undisturbed k → s.NoAbort k →
    ∃ t, Host.Core.run Sys2Proof.core k s = .next t ∧ t.now.afrSampling = decide (k ≤ f)

/-- What an asynchronous frame reads: started by an edge in tick te and neither aborted nor reset, it completes in tick
te+HALF+(W-1)*B with the word whose bit k, for k < W, is 1 exactly when DATA was read 1 without a fault in tick te+HALF+k*B,
and whose other bits are 0 (42_async_reader.md R192, R193, 20_memory.md R74). -/
def Obligations.AsyncWordIsTheSampledWire : Prop :=
  ∀ (s : State) (b f : Nat), b = s.cfg.bitPeriod.toNat → f = b / 2 + (s.cfg.w - 1) * b → s.plat.InRange →
    s.cfg.Valid s.plat → WF s.cfg s.now → s.cfg.mode = .async → s.now.afrSampling = false → s.input.dataFault = false →
    s.now.edgePrev = decide (s.cfg.startEdge = .falling) → s.input.dataIn = decide (s.cfg.startEdge = .rising) →
    s.Undisturbed (f + 1) → s.NoAbort (f + 1) →
    ∃ t w, Host.Core.run Sys2Proof.core f s = .next t ∧ completedWord t = some w ∧
      ∀ k < 16, w.getLsbD k =
        (decide (k < s.cfg.w) && !(s.envAfter (b / 2 + k * b)).input.dataFault &&
          (s.envAfter (b / 2 + k * b)).input.dataIn)

/-- One tick of emission: in a running tick that starts with the StateDiffer busy, what is in the sink trace followed by what
is still to be sent does not change, the frame's word and change mask stay, and `previous_word` becomes the frame's word exactly
when the SYNC transfers, and stays otherwise (43_state_differ.md R217, R221, R227). -/
def Obligations.EmissionIsConservedByATick : Prop :=
  ∀ s t : State, s.Running → s.now.sdState ≠ 0b00#2 → step s = .next t →
    traceWords t ++ (remainingEvents t).map Event.word = traceWords s ++ (remainingEvents s).map Event.word ∧
    t.now.sdCur = s.now.sdCur ∧ t.now.sdChg = s.now.sdChg ∧
    t.now.prevWord = (if s.now.sdState = 0b10#2 ∧ s.input.sinkReady = true then s.now.sdCur else s.now.prevWord)

/-- Emission equivalence: from the tick in which the StateDiffer takes the word c with `previous_word` = p, up to its first
return to IDLE with no reset between, the words transferred are exactly those of `diff(p, c, MAP, L)`, in order, and then
`previous_word` = c (43_state_differ.md R229, R216). -/
def Obligations.EmissionEqualsTheDiff : Prop :=
  ∀ (n : Nat) (s t : State), s.Running → s.now.sdState = 0b00#2 → s.now.handFull = true → 1 ≤ n → s.Undisturbed n →
    Host.Core.run Sys2Proof.core n s = .next t → t.now.sdState = 0b00#2 →
    (∀ k u, 1 ≤ k → k < n → Host.Core.run Sys2Proof.core k s = .next u → u.now.sdState ≠ 0b00#2) →
    traceWords t = traceWords s ++ (diff s.now.prevWord s.now.handWord s.cfg).map Event.word ∧
    t.now.prevWord = s.now.handWord

/-- A ready sink lets the emission of a frame end on time: taken in tick t, map position p is visited in tick t+1+p, the SYNC
transfers in tick t+1+L and not before, as the last word of the trace, and in `S_{t+2+L}` the StateDiffer is IDLE with
`previous_word` = the word (70_reset_and_hazards.md R325). -/
def Obligations.EmissionEndsWithAReadySink : Prop :=
  ∀ s : State, s.Running → s.now.sdState = 0b00#2 → s.now.handFull = true →
    s.Undisturbed (s.cfg.len + 2) → s.SinkReady (s.cfg.len + 2) →
    (∀ p < s.cfg.len, ∃ u, Host.Core.run Sys2Proof.core (p + 1) s = .next u ∧
      u.now.sdState = 0b01#2 ∧ u.now.sdPos.toNat = p) ∧
    (∃ u, Host.Core.run Sys2Proof.core (s.cfg.len + 1) s = .next u ∧ u.now.sdState = 0b10#2 ∧
      u.now.prevWord = s.now.prevWord) ∧
    ∃ t, Host.Core.run Sys2Proof.core (s.cfg.len + 2) s = .next t ∧
      t.now.sdState = 0b00#2 ∧ t.now.prevWord = s.now.handWord ∧
      t.trace.getLast? = some (s.tick + s.cfg.len + 1, 0x20000#18) ∧
      traceWords t = traceWords s ++ (diff s.now.prevWord s.now.handWord s.cfg).map Event.word

/-- Idempotence: the difference of a word with itself is the frame-complete marker alone, and every difference ends in
exactly one SYNC (43_state_differ.md R230, R216). -/
def Obligations.DiffOfAWordWithItselfIsOneSync : Prop :=
  ∀ (p w : ButtonWord) (c : Cfg),
    diff w w c = [.sync] ∧ (diff p w c).getLast? = some .sync ∧ (diff p w c).count .sync = 1

/-- With a sink that is ready in every tick no overrun happens: in every run from the reset machine of any parameters, record
and stimulus in which the sink is ready throughout, `overrun` stays 0 (70_reset_and_hazards.md R316). -/
def Obligations.ReadySinkMeansNoOverrun : Prop :=
  ∀ (p : Platform) (c : Cfg) (stim : List StimRun) (n : Nat) (t : State),
    State.SinkReady n { State.resetWith p c with stim := stim } →
    Host.Core.run Sys2Proof.core n { State.resetWith p c with stim := stim } = .next t →
    t.now.overrun = false

/-! ### What is exposed -/

/-- In every tick that defines outputs, `latch_out` is 1 exactly in the phase LATCH and `clock_out` exactly in the phase CLK_HIGH,
functions of `ssr_phase` alone (10_state.md R34). -/
def Obligations.LatchAndClockFollowThePhase : Prop :=
  ∀ (s : State) (o : Outputs), outputs s = some o →
    o.latchOut = decide (s.now.ssrPhase = 0b1000#4) ∧ o.clockOut = decide (s.now.ssrPhase = 0b1010#4)

/-- What a run of n ticks yields: it ends as the machine's run does; where it ends in a state, it has the outputs of each of its n
ticks in order, and its trace is what the sink trace gained; where it ends in a fault, it has the outputs of each of the ticks before
the faulting one, in order, and none of that tick (44_top_control.md R252, R257). That the sink trace and the tick number are fields of the state
is the model's choice (log 11). -/
def Obligations.RunYieldsWhatItsTicksExpose : Prop :=
  ∀ (n : Nat) (s : State),
    (runView n s).final = Host.Core.run Sys2Proof.core n s ∧
    (∀ t, Host.Core.run Sys2Proof.core n s = .next t →
      (runView n s).outputs.length = n ∧ t.trace = s.trace ++ (runView n s).trace ∧
      ∀ k < n, ∃ u o, Host.Core.run Sys2Proof.core k s = .next u ∧ outputs u = some o ∧
        (runView n s).outputs[k]? = some o) ∧
    (∀ f, Host.Core.run Sys2Proof.core n s = .fault f →
      ∃ k u, k < n ∧ Host.Core.run Sys2Proof.core k s = .next u ∧ step u = .fault f ∧ outputs u = none ∧
        (runView n s).outputs.length = k ∧
        ∀ j < k, ∃ v o, Host.Core.run Sys2Proof.core j s = .next v ∧ outputs v = some o ∧
          (runView n s).outputs[j]? = some o)

/-! ### Accumulators and conditions -/

/-- A sample is a write of its bit: no accumulator has a bit set at or above its bit count, in the reset machine of any parameters
and record and after every step from a well-formed state that has it so; hence the bit that a sample of either reader writes was 0
and becomes the sample, a faulted read counting as released (41_sync_reader.md R160, 42_async_reader.md R189, R190). -/
def Obligations.SamplesWriteABitThatWasZero : Prop :=
  (∀ (p : Platform) (c : Cfg), (State.resetWith p c).AccumulatorsOk) ∧
  (∀ s t : State, WF s.cfg s.now → s.AccumulatorsOk → step s = .next t → t.AccumulatorsOk) ∧
  (∀ s t : State, s.Running → s.AccumulatorsOk → step s = .next t → s.input.abort = false → s.now.bsRem = 1#16 →
    (s.now.ssrPhase = 0b1001#4 ∨ s.now.ssrPhase = 0b1011#4 →
      s.now.ssrAcc.getLsbD s.now.ssrBit.toNat = false ∧
      t.now.ssrAcc.getLsbD s.now.ssrBit.toNat = (!s.input.dataFault && !s.input.dataIn)) ∧
    (s.now.afrSampling = true → s.now.afrBit.toNat < s.cfg.w - 1 →
      s.now.afrAcc.getLsbD s.now.afrBit.toNat = false ∧
      t.now.afrAcc.getLsbD s.now.afrBit.toNat = (!s.input.dataFault && s.input.dataIn)) ∧
    (s.now.afrSampling = true → s.now.afrBit.toNat = s.cfg.w - 1 →
      s.now.afrAcc.getLsbD s.now.afrBit.toNat = false ∧
      ∃ w, completedWord s = some w ∧ w.getLsbD s.now.afrBit.toNat = (!s.input.dataFault && s.input.dataIn)))

/-- The other conditions of a tick. In a running tick ReentrantFrame is met exactly when, with no abort, a start edge comes while
the AFR is SAMPLING or a poll strobe while the SSR is busy; Abandon exactly when `abort` = 1; ResourceUnavailable and UNREACHABLE
never. A tick with `rst` = 1 meets no condition, a tick of an invalid record ResourceUnavailable alone, and a tick that starts in
a record failing WF UNREACHABLE alone. The codes are those of the table (60_exceptions.md R280). That a tick's conditions are
listed so is the model's reading (log 18). -/
def Obligations.OtherConditionsAreMetAsStated : Prop :=
  (∀ s : State, s.Running →
    (Cause.reentrantFrame ∈ tickCauses s ↔
      s.input.abort = false ∧
        ((s.now.afrSampling = true ∧ s.input.dataFault = false ∧
            s.now.edgePrev = decide (s.cfg.startEdge = .falling) ∧ s.input.dataIn = decide (s.cfg.startEdge = .rising)) ∨
          (s.now.ssrPhase.getLsbD 3 = true ∧ s.now.pollCnt = s.cfg.pollPeriod - 1#32))) ∧
    (Cause.abandon ∈ tickCauses s ↔ s.input.abort = true) ∧
    Cause.resourceUnavailable ∉ tickCauses s ∧ Cause.unreachable ∉ tickCauses s) ∧
  (∀ s : State, s.input.rst = true → tickCauses s = []) ∧
  (∀ s : State, s.Accepted → s.input.rst = false → ¬ s.cfg.Valid s.plat → tickCauses s = [.resourceUnavailable]) ∧
  (∀ s : State, s.Accepted → s.input.rst = false → s.cfg.Valid s.plat → ¬ WF s.cfg s.now →
    tickCauses s = [.unreachable]) ∧
  [Cause.lineFault, .reentrantFrame, .resourceUnavailable, .overrun, .abandon, .unreachable].map Cause.code =
    [1, 2, 3, 4, 5, 15]
end

