-- ==== Sys2Proof/Laws/Decode.lean ====
section
/-! SUPPORT. Decoding, unit by unit: the operation that a vector formed by 30_encoding.md R102 selects, as a function of
its state and condition bits. Each lemma is the row block of R112 read once; later proofs cite it and never unfold the
operation map. -/

namespace Sys2Proof.Machine

set_option maxRecDepth 20000

theorem decode_top (valid rst : Bool) :
    decode (.osv (mkOsv .top 0#4 (nibble false false valid rst))) =
      .ok (if rst then .topReset else if valid then .topRun else .topInert) := by
  revert valid rst; decide

theorem decode_bs (kind : ReqKind) (busy abort one : Bool) :
    decode (.osv (mkOsv .bs (nibble false false (kindBit kind) busy) (nibble false false abort one))) =
      .ok (if !busy then .bsIdle else if abort then .bsCancel else if !one then .bsCount
        else if kind = .delay then .bsFireDelay else .bsFireSample) := by
  cases kind <;> revert busy abort one <;> decide

theorem decode_poll (mode : Mode) (last : Bool) :
    decode (.osv (mkOsv .poll 0#4 (nibble false false (modeBit mode) last))) =
      .ok (if mode = .async then .pollOff else if last then .pollStrobe else .pollCount) := by
  cases mode <;> revert last <;> decide

/-- The phases of 10_state.md R33, each with its condition bits. -/
theorem decode_ssr (ph : BitVec 4) (full strobe abort fire : Bool)
    (h : ph = phIdle ∨ ph = phLatch ∨ ph = phSettle ∨ ph = phClkHigh ∨ ph = phClkLow ∨ ph = phClkTail) :
    decode (.osv (mkOsv .ssr ph (nibble full strobe abort fire))) =
      .ok (if abort then .ssrAbort
        else if ph = phIdle then (if strobe then .ssrStart else .ssrIdleHold)
        else if !fire then .ssrWait
        else if ph = phLatch then .ssrLatchEnd
        else if ph = phClkHigh then .ssrClkEnd
        else if ph = phClkTail then .ssrFinish
        else .ssrSample) := by
  rcases h with rfl | rfl | rfl | rfl | rfl | rfl <;> revert full strobe abort fire <;> decide

theorem decode_edge (prev mode edge level fault : Bool) :
    decode (.osv (mkOsv .edge (nibble false false false prev) (nibble mode edge level fault))) =
      .ok (if fault then .edgeHold else .edgeTrack) := by
  revert prev mode edge level fault; decide

theorem decode_afr (sampling last edge abort fire : Bool) :
    decode (.osv (mkOsv .afr (nibble sampling false false false) (nibble last edge abort fire))) =
      .ok (if abort then .afrAbort
        else if !sampling then (if edge then .afrStart else .afrIdleHold)
        else if !fire then (if edge then .afrEdgeIgnored else .afrWait)
        else if last then .afrFinish else .afrSample) := by
  revert sampling last edge abort fire; decide

/-- `take` implies `hand_full` (30_encoding.md R103). -/
theorem decode_hand (full tk wr : Bool) (h : tk = true → full = true) :
    decode (.osv (mkOsv .hand (nibble false false false full) (nibble false false tk wr))) =
      .ok (if tk then (if wr then .handTakeWrite else .handTake)
        else if !wr then .handNop else if full then .handOverrun else .handWrite) := by
  revert full tk wr; decide

/-- The states of 10_state.md R39, each with its condition bits. -/
theorem decode_sd (st : BitVec 2) (last ready hit full : Bool) (h : st ≠ 0b11#2) :
    decode (.osv (mkOsv .sd (nibble false false (st.getLsbD 1) (st.getLsbD 0)) (nibble last ready hit full))) =
      .ok (if st = sdsIdle then (if full then .sdTake else .sdIdleHold)
        else if st = sdsEmit then (if !hit then .sdSkip else if ready then .sdReport else .sdReportWait)
        else if ready then .sdSync else .sdSyncWait) := by
  revert st last ready hit full; decide

end Sys2Proof.Machine
end

