-- ==== Sys2Proof/Laws/State.lean ====
section
/-! SUPPORT. Every field of the state after every update that meanings share, one lemma each: later proofs unfold no record
update. -/

namespace Sys2Proof.Machine

/-! ### The BitSampler request, 40_bit_sampler.md R132 -/

@[simp] theorem bsRequest_plat (k : ReqKind) (d : BitVec 16) (fb : Bool) (s : State) : (bsRequest k d fb s).plat = s.plat := rfl
@[simp] theorem bsRequest_cfg (k : ReqKind) (d : BitVec 16) (fb : Bool) (s : State) : (bsRequest k d fb s).cfg = s.cfg := rfl
@[simp] theorem bsRequest_now (k : ReqKind) (d : BitVec 16) (fb : Bool) (s : State) : (bsRequest k d fb s).now = s.now := rfl
@[simp] theorem bsRequest_sig (k : ReqKind) (d : BitVec 16) (fb : Bool) (s : State) : (bsRequest k d fb s).sig = s.sig := rfl
@[simp] theorem bsRequest_stim (k : ReqKind) (d : BitVec 16) (fb : Bool) (s : State) : (bsRequest k d fb s).stim = s.stim := rfl
@[simp] theorem bsRequest_tick (k : ReqKind) (d : BitVec 16) (fb : Bool) (s : State) : (bsRequest k d fb s).tick = s.tick := rfl
@[simp] theorem bsRequest_trace (k : ReqKind) (d : BitVec 16) (fb : Bool) (s : State) : (bsRequest k d fb s).trace = s.trace := rfl
@[simp] theorem bsRequest_nxt_bsBusy (k : ReqKind) (d : BitVec 16) (fb : Bool) (s : State) : (bsRequest k d fb s).nxt.bsBusy = true := rfl
@[simp] theorem bsRequest_nxt_bsKind (k : ReqKind) (d : BitVec 16) (fb : Bool) (s : State) : (bsRequest k d fb s).nxt.bsKind = k := rfl
@[simp] theorem bsRequest_nxt_bsRem (k : ReqKind) (d : BitVec 16) (fb : Bool) (s : State) : (bsRequest k d fb s).nxt.bsRem = d := rfl
@[simp] theorem bsRequest_nxt_bsFb (k : ReqKind) (d : BitVec 16) (fb : Bool) (s : State) : (bsRequest k d fb s).nxt.bsFb = fb := rfl
@[simp] theorem bsRequest_nxt_pollCnt (k : ReqKind) (d : BitVec 16) (fb : Bool) (s : State) : (bsRequest k d fb s).nxt.pollCnt = s.nxt.pollCnt := rfl
@[simp] theorem bsRequest_nxt_ssrPhase (k : ReqKind) (d : BitVec 16) (fb : Bool) (s : State) : (bsRequest k d fb s).nxt.ssrPhase = s.nxt.ssrPhase := rfl
@[simp] theorem bsRequest_nxt_ssrBit (k : ReqKind) (d : BitVec 16) (fb : Bool) (s : State) : (bsRequest k d fb s).nxt.ssrBit = s.nxt.ssrBit := rfl
@[simp] theorem bsRequest_nxt_ssrAcc (k : ReqKind) (d : BitVec 16) (fb : Bool) (s : State) : (bsRequest k d fb s).nxt.ssrAcc = s.nxt.ssrAcc := rfl
@[simp] theorem bsRequest_nxt_edgePrev (k : ReqKind) (d : BitVec 16) (fb : Bool) (s : State) : (bsRequest k d fb s).nxt.edgePrev = s.nxt.edgePrev := rfl
@[simp] theorem bsRequest_nxt_afrSampling (k : ReqKind) (d : BitVec 16) (fb : Bool) (s : State) : (bsRequest k d fb s).nxt.afrSampling = s.nxt.afrSampling := rfl
@[simp] theorem bsRequest_nxt_afrBit (k : ReqKind) (d : BitVec 16) (fb : Bool) (s : State) : (bsRequest k d fb s).nxt.afrBit = s.nxt.afrBit := rfl
@[simp] theorem bsRequest_nxt_afrAcc (k : ReqKind) (d : BitVec 16) (fb : Bool) (s : State) : (bsRequest k d fb s).nxt.afrAcc = s.nxt.afrAcc := rfl
@[simp] theorem bsRequest_nxt_syncOut (k : ReqKind) (d : BitVec 16) (fb : Bool) (s : State) : (bsRequest k d fb s).nxt.syncOut = s.nxt.syncOut := rfl
@[simp] theorem bsRequest_nxt_handFull (k : ReqKind) (d : BitVec 16) (fb : Bool) (s : State) : (bsRequest k d fb s).nxt.handFull = s.nxt.handFull := rfl
@[simp] theorem bsRequest_nxt_handWord (k : ReqKind) (d : BitVec 16) (fb : Bool) (s : State) : (bsRequest k d fb s).nxt.handWord = s.nxt.handWord := rfl
@[simp] theorem bsRequest_nxt_sdState (k : ReqKind) (d : BitVec 16) (fb : Bool) (s : State) : (bsRequest k d fb s).nxt.sdState = s.nxt.sdState := rfl
@[simp] theorem bsRequest_nxt_sdCur (k : ReqKind) (d : BitVec 16) (fb : Bool) (s : State) : (bsRequest k d fb s).nxt.sdCur = s.nxt.sdCur := rfl
@[simp] theorem bsRequest_nxt_sdChg (k : ReqKind) (d : BitVec 16) (fb : Bool) (s : State) : (bsRequest k d fb s).nxt.sdChg = s.nxt.sdChg := rfl
@[simp] theorem bsRequest_nxt_sdPos (k : ReqKind) (d : BitVec 16) (fb : Bool) (s : State) : (bsRequest k d fb s).nxt.sdPos = s.nxt.sdPos := rfl
@[simp] theorem bsRequest_nxt_prevWord (k : ReqKind) (d : BitVec 16) (fb : Bool) (s : State) : (bsRequest k d fb s).nxt.prevWord = s.nxt.prevWord := rfl
@[simp] theorem bsRequest_nxt_overrun (k : ReqKind) (d : BitVec 16) (fb : Bool) (s : State) : (bsRequest k d fb s).nxt.overrun = s.nxt.overrun := rfl

/-! ### The SSR back to IDLE -/

@[simp] theorem ssrClear_plat (s : State) : (ssrClear s).plat = s.plat := rfl
@[simp] theorem ssrClear_cfg (s : State) : (ssrClear s).cfg = s.cfg := rfl
@[simp] theorem ssrClear_now (s : State) : (ssrClear s).now = s.now := rfl
@[simp] theorem ssrClear_sig (s : State) : (ssrClear s).sig = s.sig := rfl
@[simp] theorem ssrClear_stim (s : State) : (ssrClear s).stim = s.stim := rfl
@[simp] theorem ssrClear_tick (s : State) : (ssrClear s).tick = s.tick := rfl
@[simp] theorem ssrClear_trace (s : State) : (ssrClear s).trace = s.trace := rfl
@[simp] theorem ssrClear_nxt_bsBusy (s : State) : (ssrClear s).nxt.bsBusy = s.nxt.bsBusy := rfl
@[simp] theorem ssrClear_nxt_bsKind (s : State) : (ssrClear s).nxt.bsKind = s.nxt.bsKind := rfl
@[simp] theorem ssrClear_nxt_bsRem (s : State) : (ssrClear s).nxt.bsRem = s.nxt.bsRem := rfl
@[simp] theorem ssrClear_nxt_bsFb (s : State) : (ssrClear s).nxt.bsFb = s.nxt.bsFb := rfl
@[simp] theorem ssrClear_nxt_pollCnt (s : State) : (ssrClear s).nxt.pollCnt = s.nxt.pollCnt := rfl
@[simp] theorem ssrClear_nxt_ssrPhase (s : State) : (ssrClear s).nxt.ssrPhase = phIdle := rfl
@[simp] theorem ssrClear_nxt_ssrBit (s : State) : (ssrClear s).nxt.ssrBit = 0#5 := rfl
@[simp] theorem ssrClear_nxt_ssrAcc (s : State) : (ssrClear s).nxt.ssrAcc = 0#16 := rfl
@[simp] theorem ssrClear_nxt_edgePrev (s : State) : (ssrClear s).nxt.edgePrev = s.nxt.edgePrev := rfl
@[simp] theorem ssrClear_nxt_afrSampling (s : State) : (ssrClear s).nxt.afrSampling = s.nxt.afrSampling := rfl
@[simp] theorem ssrClear_nxt_afrBit (s : State) : (ssrClear s).nxt.afrBit = s.nxt.afrBit := rfl
@[simp] theorem ssrClear_nxt_afrAcc (s : State) : (ssrClear s).nxt.afrAcc = s.nxt.afrAcc := rfl
@[simp] theorem ssrClear_nxt_syncOut (s : State) : (ssrClear s).nxt.syncOut = s.nxt.syncOut := rfl
@[simp] theorem ssrClear_nxt_handFull (s : State) : (ssrClear s).nxt.handFull = s.nxt.handFull := rfl
@[simp] theorem ssrClear_nxt_handWord (s : State) : (ssrClear s).nxt.handWord = s.nxt.handWord := rfl
@[simp] theorem ssrClear_nxt_sdState (s : State) : (ssrClear s).nxt.sdState = s.nxt.sdState := rfl
@[simp] theorem ssrClear_nxt_sdCur (s : State) : (ssrClear s).nxt.sdCur = s.nxt.sdCur := rfl
@[simp] theorem ssrClear_nxt_sdChg (s : State) : (ssrClear s).nxt.sdChg = s.nxt.sdChg := rfl
@[simp] theorem ssrClear_nxt_sdPos (s : State) : (ssrClear s).nxt.sdPos = s.nxt.sdPos := rfl
@[simp] theorem ssrClear_nxt_prevWord (s : State) : (ssrClear s).nxt.prevWord = s.nxt.prevWord := rfl
@[simp] theorem ssrClear_nxt_overrun (s : State) : (ssrClear s).nxt.overrun = s.nxt.overrun := rfl

/-! ### The AFR back to IDLE -/

@[simp] theorem afrClear_plat (s : State) : (afrClear s).plat = s.plat := rfl
@[simp] theorem afrClear_cfg (s : State) : (afrClear s).cfg = s.cfg := rfl
@[simp] theorem afrClear_now (s : State) : (afrClear s).now = s.now := rfl
@[simp] theorem afrClear_sig (s : State) : (afrClear s).sig = s.sig := rfl
@[simp] theorem afrClear_stim (s : State) : (afrClear s).stim = s.stim := rfl
@[simp] theorem afrClear_tick (s : State) : (afrClear s).tick = s.tick := rfl
@[simp] theorem afrClear_trace (s : State) : (afrClear s).trace = s.trace := rfl
@[simp] theorem afrClear_nxt_bsBusy (s : State) : (afrClear s).nxt.bsBusy = s.nxt.bsBusy := rfl
@[simp] theorem afrClear_nxt_bsKind (s : State) : (afrClear s).nxt.bsKind = s.nxt.bsKind := rfl
@[simp] theorem afrClear_nxt_bsRem (s : State) : (afrClear s).nxt.bsRem = s.nxt.bsRem := rfl
@[simp] theorem afrClear_nxt_bsFb (s : State) : (afrClear s).nxt.bsFb = s.nxt.bsFb := rfl
@[simp] theorem afrClear_nxt_pollCnt (s : State) : (afrClear s).nxt.pollCnt = s.nxt.pollCnt := rfl
@[simp] theorem afrClear_nxt_ssrPhase (s : State) : (afrClear s).nxt.ssrPhase = s.nxt.ssrPhase := rfl
@[simp] theorem afrClear_nxt_ssrBit (s : State) : (afrClear s).nxt.ssrBit = s.nxt.ssrBit := rfl
@[simp] theorem afrClear_nxt_ssrAcc (s : State) : (afrClear s).nxt.ssrAcc = s.nxt.ssrAcc := rfl
@[simp] theorem afrClear_nxt_edgePrev (s : State) : (afrClear s).nxt.edgePrev = s.nxt.edgePrev := rfl
@[simp] theorem afrClear_nxt_afrSampling (s : State) : (afrClear s).nxt.afrSampling = false := rfl
@[simp] theorem afrClear_nxt_afrBit (s : State) : (afrClear s).nxt.afrBit = 0#5 := rfl
@[simp] theorem afrClear_nxt_afrAcc (s : State) : (afrClear s).nxt.afrAcc = 0#16 := rfl
@[simp] theorem afrClear_nxt_syncOut (s : State) : (afrClear s).nxt.syncOut = s.nxt.syncOut := rfl
@[simp] theorem afrClear_nxt_handFull (s : State) : (afrClear s).nxt.handFull = s.nxt.handFull := rfl
@[simp] theorem afrClear_nxt_handWord (s : State) : (afrClear s).nxt.handWord = s.nxt.handWord := rfl
@[simp] theorem afrClear_nxt_sdState (s : State) : (afrClear s).nxt.sdState = s.nxt.sdState := rfl
@[simp] theorem afrClear_nxt_sdCur (s : State) : (afrClear s).nxt.sdCur = s.nxt.sdCur := rfl
@[simp] theorem afrClear_nxt_sdChg (s : State) : (afrClear s).nxt.sdChg = s.nxt.sdChg := rfl
@[simp] theorem afrClear_nxt_sdPos (s : State) : (afrClear s).nxt.sdPos = s.nxt.sdPos := rfl
@[simp] theorem afrClear_nxt_prevWord (s : State) : (afrClear s).nxt.prevWord = s.nxt.prevWord := rfl
@[simp] theorem afrClear_nxt_overrun (s : State) : (afrClear s).nxt.overrun = s.nxt.overrun := rfl

/-! ### The SD past a map position, 43_state_differ.md R224, R225 -/

@[simp] theorem sdAdvance_plat (s : State) : (sdAdvance s).plat = s.plat := rfl
@[simp] theorem sdAdvance_cfg (s : State) : (sdAdvance s).cfg = s.cfg := rfl
@[simp] theorem sdAdvance_now (s : State) : (sdAdvance s).now = s.now := rfl
@[simp] theorem sdAdvance_sig (s : State) : (sdAdvance s).sig = s.sig := rfl
@[simp] theorem sdAdvance_stim (s : State) : (sdAdvance s).stim = s.stim := rfl
@[simp] theorem sdAdvance_tick (s : State) : (sdAdvance s).tick = s.tick := rfl
@[simp] theorem sdAdvance_trace (s : State) : (sdAdvance s).trace = s.trace := rfl
@[simp] theorem sdAdvance_nxt_bsBusy (s : State) : (sdAdvance s).nxt.bsBusy = s.nxt.bsBusy := rfl
@[simp] theorem sdAdvance_nxt_bsKind (s : State) : (sdAdvance s).nxt.bsKind = s.nxt.bsKind := rfl
@[simp] theorem sdAdvance_nxt_bsRem (s : State) : (sdAdvance s).nxt.bsRem = s.nxt.bsRem := rfl
@[simp] theorem sdAdvance_nxt_bsFb (s : State) : (sdAdvance s).nxt.bsFb = s.nxt.bsFb := rfl
@[simp] theorem sdAdvance_nxt_pollCnt (s : State) : (sdAdvance s).nxt.pollCnt = s.nxt.pollCnt := rfl
@[simp] theorem sdAdvance_nxt_ssrPhase (s : State) : (sdAdvance s).nxt.ssrPhase = s.nxt.ssrPhase := rfl
@[simp] theorem sdAdvance_nxt_ssrBit (s : State) : (sdAdvance s).nxt.ssrBit = s.nxt.ssrBit := rfl
@[simp] theorem sdAdvance_nxt_ssrAcc (s : State) : (sdAdvance s).nxt.ssrAcc = s.nxt.ssrAcc := rfl
@[simp] theorem sdAdvance_nxt_edgePrev (s : State) : (sdAdvance s).nxt.edgePrev = s.nxt.edgePrev := rfl
@[simp] theorem sdAdvance_nxt_afrSampling (s : State) : (sdAdvance s).nxt.afrSampling = s.nxt.afrSampling := rfl
@[simp] theorem sdAdvance_nxt_afrBit (s : State) : (sdAdvance s).nxt.afrBit = s.nxt.afrBit := rfl
@[simp] theorem sdAdvance_nxt_afrAcc (s : State) : (sdAdvance s).nxt.afrAcc = s.nxt.afrAcc := rfl
@[simp] theorem sdAdvance_nxt_syncOut (s : State) : (sdAdvance s).nxt.syncOut = s.nxt.syncOut := rfl
@[simp] theorem sdAdvance_nxt_handFull (s : State) : (sdAdvance s).nxt.handFull = s.nxt.handFull := rfl
@[simp] theorem sdAdvance_nxt_handWord (s : State) : (sdAdvance s).nxt.handWord = s.nxt.handWord := rfl
@[simp] theorem sdAdvance_nxt_sdState (s : State) : (sdAdvance s).nxt.sdState = if lastEntry s then sdsSync else s.nxt.sdState := rfl
@[simp] theorem sdAdvance_nxt_sdCur (s : State) : (sdAdvance s).nxt.sdCur = s.nxt.sdCur := rfl
@[simp] theorem sdAdvance_nxt_sdChg (s : State) : (sdAdvance s).nxt.sdChg = s.nxt.sdChg := rfl
@[simp] theorem sdAdvance_nxt_sdPos (s : State) : (sdAdvance s).nxt.sdPos = s.now.sdPos + 1#5 := rfl
@[simp] theorem sdAdvance_nxt_prevWord (s : State) : (sdAdvance s).nxt.prevWord = s.nxt.prevWord := rfl
@[simp] theorem sdAdvance_nxt_overrun (s : State) : (sdAdvance s).nxt.overrun = s.nxt.overrun := rfl

/-! ### The sticky bit, 43_state_differ.md R214 -/

@[simp] theorem setOverrun_plat (s : State) : (setOverrun s).plat = s.plat := rfl
@[simp] theorem setOverrun_cfg (s : State) : (setOverrun s).cfg = s.cfg := rfl
@[simp] theorem setOverrun_now (s : State) : (setOverrun s).now = s.now := rfl
@[simp] theorem setOverrun_sig (s : State) : (setOverrun s).sig = s.sig := rfl
@[simp] theorem setOverrun_stim (s : State) : (setOverrun s).stim = s.stim := rfl
@[simp] theorem setOverrun_tick (s : State) : (setOverrun s).tick = s.tick := rfl
@[simp] theorem setOverrun_trace (s : State) : (setOverrun s).trace = s.trace := rfl
@[simp] theorem setOverrun_nxt_bsBusy (s : State) : (setOverrun s).nxt.bsBusy = s.nxt.bsBusy := rfl
@[simp] theorem setOverrun_nxt_bsKind (s : State) : (setOverrun s).nxt.bsKind = s.nxt.bsKind := rfl
@[simp] theorem setOverrun_nxt_bsRem (s : State) : (setOverrun s).nxt.bsRem = s.nxt.bsRem := rfl
@[simp] theorem setOverrun_nxt_bsFb (s : State) : (setOverrun s).nxt.bsFb = s.nxt.bsFb := rfl
@[simp] theorem setOverrun_nxt_pollCnt (s : State) : (setOverrun s).nxt.pollCnt = s.nxt.pollCnt := rfl
@[simp] theorem setOverrun_nxt_ssrPhase (s : State) : (setOverrun s).nxt.ssrPhase = s.nxt.ssrPhase := rfl
@[simp] theorem setOverrun_nxt_ssrBit (s : State) : (setOverrun s).nxt.ssrBit = s.nxt.ssrBit := rfl
@[simp] theorem setOverrun_nxt_ssrAcc (s : State) : (setOverrun s).nxt.ssrAcc = s.nxt.ssrAcc := rfl
@[simp] theorem setOverrun_nxt_edgePrev (s : State) : (setOverrun s).nxt.edgePrev = s.nxt.edgePrev := rfl
@[simp] theorem setOverrun_nxt_afrSampling (s : State) : (setOverrun s).nxt.afrSampling = s.nxt.afrSampling := rfl
@[simp] theorem setOverrun_nxt_afrBit (s : State) : (setOverrun s).nxt.afrBit = s.nxt.afrBit := rfl
@[simp] theorem setOverrun_nxt_afrAcc (s : State) : (setOverrun s).nxt.afrAcc = s.nxt.afrAcc := rfl
@[simp] theorem setOverrun_nxt_syncOut (s : State) : (setOverrun s).nxt.syncOut = s.nxt.syncOut := rfl
@[simp] theorem setOverrun_nxt_handFull (s : State) : (setOverrun s).nxt.handFull = s.nxt.handFull := rfl
@[simp] theorem setOverrun_nxt_handWord (s : State) : (setOverrun s).nxt.handWord = s.nxt.handWord := rfl
@[simp] theorem setOverrun_nxt_sdState (s : State) : (setOverrun s).nxt.sdState = s.nxt.sdState := rfl
@[simp] theorem setOverrun_nxt_sdCur (s : State) : (setOverrun s).nxt.sdCur = s.nxt.sdCur := rfl
@[simp] theorem setOverrun_nxt_sdChg (s : State) : (setOverrun s).nxt.sdChg = s.nxt.sdChg := rfl
@[simp] theorem setOverrun_nxt_sdPos (s : State) : (setOverrun s).nxt.sdPos = s.nxt.sdPos := rfl
@[simp] theorem setOverrun_nxt_prevWord (s : State) : (setOverrun s).nxt.prevWord = s.nxt.prevWord := rfl
@[simp] theorem setOverrun_nxt_overrun (s : State) : (setOverrun s).nxt.overrun = true := rfl

/-! ### A word offered to the handoff, 43_state_differ.md R210 -/

@[simp] theorem handWrite_plat (w : ButtonWord) (s : State) : (handWrite w s).plat = s.plat := rfl
@[simp] theorem handWrite_cfg (w : ButtonWord) (s : State) : (handWrite w s).cfg = s.cfg := rfl
@[simp] theorem handWrite_now (w : ButtonWord) (s : State) : (handWrite w s).now = s.now := rfl
@[simp] theorem handWrite_nxt (w : ButtonWord) (s : State) : (handWrite w s).nxt = s.nxt := rfl
@[simp] theorem handWrite_stim (w : ButtonWord) (s : State) : (handWrite w s).stim = s.stim := rfl
@[simp] theorem handWrite_tick (w : ButtonWord) (s : State) : (handWrite w s).tick = s.tick := rfl
@[simp] theorem handWrite_trace (w : ButtonWord) (s : State) : (handWrite w s).trace = s.trace := rfl
@[simp] theorem handWrite_sig_bsFire (w : ButtonWord) (s : State) : (handWrite w s).sig.bsFire = s.sig.bsFire := rfl
@[simp] theorem handWrite_sig_bsVal (w : ButtonWord) (s : State) : (handWrite w s).sig.bsVal = s.sig.bsVal := rfl
@[simp] theorem handWrite_sig_pollStrobe (w : ButtonWord) (s : State) : (handWrite w s).sig.pollStrobe = s.sig.pollStrobe := rfl
@[simp] theorem handWrite_sig_startEdge (w : ButtonWord) (s : State) : (handWrite w s).sig.startEdge = s.sig.startEdge := rfl
@[simp] theorem handWrite_sig_write (w : ButtonWord) (s : State) : (handWrite w s).sig.write = true := rfl
@[simp] theorem handWrite_sig_hwWord (w : ButtonWord) (s : State) : (handWrite w s).sig.hwWord = w := rfl

/-! ### A transfer, 43_state_differ.md R221 -/

@[simp] theorem transfer_plat (w : EventWord) (s : State) : (transfer w s).plat = s.plat := rfl
@[simp] theorem transfer_cfg (w : EventWord) (s : State) : (transfer w s).cfg = s.cfg := rfl
@[simp] theorem transfer_now (w : EventWord) (s : State) : (transfer w s).now = s.now := rfl
@[simp] theorem transfer_nxt (w : EventWord) (s : State) : (transfer w s).nxt = s.nxt := rfl
@[simp] theorem transfer_sig (w : EventWord) (s : State) : (transfer w s).sig = s.sig := rfl
@[simp] theorem transfer_stim (w : EventWord) (s : State) : (transfer w s).stim = s.stim := rfl
@[simp] theorem transfer_tick (w : EventWord) (s : State) : (transfer w s).tick = s.tick := rfl
@[simp] theorem transfer_trace (w : EventWord) (s : State) : (transfer w s).trace = s.trace ++ [(s.tick, w)] := rfl

/-! ### The start and the end of a tick -/

@[simp] theorem beginTick_plat (s : State) : (beginTick s).plat = s.plat := rfl
@[simp] theorem beginTick_cfg (s : State) : (beginTick s).cfg = s.cfg := rfl
@[simp] theorem beginTick_now (s : State) : (beginTick s).now = s.now := rfl
@[simp] theorem beginTick_nxt (s : State) : (beginTick s).nxt = s.now := rfl
@[simp] theorem beginTick_sig (s : State) : (beginTick s).sig = Signals.quiet := rfl
@[simp] theorem beginTick_stim (s : State) : (beginTick s).stim = s.stim := rfl
@[simp] theorem beginTick_tick (s : State) : (beginTick s).tick = s.tick := rfl
@[simp] theorem beginTick_trace (s : State) : (beginTick s).trace = s.trace := rfl
@[simp] theorem tickBoundary_plat (s : State) : (tickBoundary s).plat = s.plat := rfl
@[simp] theorem tickBoundary_cfg (s : State) : (tickBoundary s).cfg = s.cfg := rfl
@[simp] theorem tickBoundary_now (s : State) : (tickBoundary s).now = s.nxt := rfl
@[simp] theorem tickBoundary_nxt (s : State) : (tickBoundary s).nxt = s.nxt := rfl
@[simp] theorem tickBoundary_sig (s : State) : (tickBoundary s).sig = Signals.quiet := rfl
@[simp] theorem tickBoundary_stim (s : State) : (tickBoundary s).stim = stimRest s.stim := rfl
@[simp] theorem tickBoundary_tick (s : State) : (tickBoundary s).tick = s.tick + 1 := rfl
@[simp] theorem tickBoundary_trace (s : State) : (tickBoundary s).trace = s.trace := rfl

/-! ### A machine put into a situation, and the environment of a later tick -/

@[simp] theorem State.inSituation_plat (g : Situation) (s : State) : (s.inSituation g).plat = s.plat := rfl
@[simp] theorem State.inSituation_cfg (g : Situation) (s : State) : (s.inSituation g).cfg = g.cfg := rfl
@[simp] theorem State.inSituation_now (g : Situation) (s : State) : (s.inSituation g).now = g.regs := rfl
@[simp] theorem State.inSituation_nxt (g : Situation) (s : State) : (s.inSituation g).nxt = g.regs := rfl
@[simp] theorem State.inSituation_sig (g : Situation) (s : State) : (s.inSituation g).sig = Signals.quiet := rfl
@[simp] theorem State.inSituation_stim (g : Situation) (s : State) : (s.inSituation g).stim = [⟨g.inputs.toIv, 1, none⟩] := rfl
@[simp] theorem State.inSituation_tick (g : Situation) (s : State) : (s.inSituation g).tick = s.tick := rfl
@[simp] theorem State.inSituation_trace (g : Situation) (s : State) : (s.inSituation g).trace = s.trace := rfl
@[simp] theorem State.envAfter_plat (k : Nat) (s : State) : (s.envAfter k).plat = s.plat := rfl
@[simp] theorem State.envAfter_cfg (k : Nat) (s : State) : (s.envAfter k).cfg = s.cfg := rfl
@[simp] theorem State.envAfter_now (k : Nat) (s : State) : (s.envAfter k).now = s.now := rfl
@[simp] theorem State.envAfter_nxt (k : Nat) (s : State) : (s.envAfter k).nxt = s.nxt := rfl
@[simp] theorem State.envAfter_sig (k : Nat) (s : State) : (s.envAfter k).sig = s.sig := rfl
@[simp] theorem State.envAfter_stim (k : Nat) (s : State) : (s.envAfter k).stim = stimAfter k s.stim := rfl
@[simp] theorem State.envAfter_tick (k : Nat) (s : State) : (s.envAfter k).tick = s.tick + k := rfl
@[simp] theorem State.envAfter_trace (k : Nat) (s : State) : (s.envAfter k).trace = s.trace := rfl

/-! ### Reset -/

@[simp] theorem State.resetWith_plat (p : Platform) (c : Cfg) : (State.resetWith p c).plat = p := rfl
@[simp] theorem State.resetWith_cfg (p : Platform) (c : Cfg) : (State.resetWith p c).cfg = c := rfl
@[simp] theorem State.resetWith_now (p : Platform) (c : Cfg) : (State.resetWith p c).now = Regs.reset c := rfl
@[simp] theorem State.resetWith_nxt (p : Platform) (c : Cfg) : (State.resetWith p c).nxt = Regs.reset c := rfl
@[simp] theorem State.resetWith_sig (p : Platform) (c : Cfg) : (State.resetWith p c).sig = Signals.quiet := rfl
@[simp] theorem State.resetWith_stim (p : Platform) (c : Cfg) : (State.resetWith p c).stim = [] := rfl
@[simp] theorem State.resetWith_tick (p : Platform) (c : Cfg) : (State.resetWith p c).tick = 0 := rfl
@[simp] theorem State.resetWith_trace (p : Platform) (c : Cfg) : (State.resetWith p c).trace = [] := rfl

end Sys2Proof.Machine
end

