-- ==== Sys2Proof/Laws/Ops.lean ====
section
/-! SUPPORT. What each shared operation does, said once: bits of a captured and of an accumulated word, the offer to the
event port, the stimulus, and which operations always complete. -/

namespace Sys2Proof.Machine

/-- `Capture`, 40_bit_sampler.md R131: the level, and the fallback when the read faults. -/
theorem capture_eq (level fault fb : Bool) : capture level fault fb = ((fault && fb) || (!fault && level)) := by
  cases fault <;> simp [capture]

/-- Writing one sampled bit: bit `i` is or-ed with it, every other bit stays (41_sync_reader.md R160). -/
theorem orBit_getLsbD (acc : ButtonWord) (b : Bool) (i j : Nat) (hi : i < 16) :
    (orBit acc b i).getLsbD j = (acc.getLsbD j || (decide (j = i) && b)) := by
  unfold orBit zext16
  simp only [BitVec.getLsbD_or, BitVec.getLsbD_shiftLeft]
  by_cases h : j = i
  · subst h; simp [hi]
  · by_cases h2 : j < i
    · simp [h, h2]
    · have : j - i ≠ 0 := by omega
      cases b <;> simp [h, this]

/-- A word fits in `w` bits when no bit from `w` on is set. -/
theorem fitsIn_iff (w : Nat) (x : ButtonWord) : FitsIn w x ↔ ∀ i, w ≤ i → x.getLsbD i = false := by
  constructor
  · intro h i hi
    have hb := congrArg (fun y => BitVec.getLsbD y (i - w)) h
    simp only [BitVec.getLsbD_ushiftRight, BitVec.getLsbD_zero] at hb
    rwa [show w + (i - w) = i by omega] at hb
  · intro h
    apply BitVec.eq_of_getLsbD_eq
    intro i _
    simp only [BitVec.getLsbD_ushiftRight, BitVec.getLsbD_zero]
    exact h (w + i) (by omega)

theorem fitsIn_zero (w : Nat) : FitsIn w 0#16 := by rw [fitsIn_iff]; simp

theorem fitsIn_xor {w : Nat} {x y : ButtonWord} (h : FitsIn w x) (h' : FitsIn w y) : FitsIn w (x ^^^ y) := by
  rw [fitsIn_iff] at *
  intro j hj
  simp [h j hj, h' j hj]

theorem fitsIn_orBit {w : Nat} {x : ButtonWord} (h : FitsIn w x) (b : Bool) {i : Nat} (hi : i < w) (h16 : w ≤ 16) :
    FitsIn w (orBit x b i) := by
  rw [fitsIn_iff] at *
  intro j hj
  rw [orBit_getLsbD _ _ _ _ (by omega), h j hj]
  simp
  omega

theorem fitsIn_mono {v w : Nat} (hvw : v ≤ w) {x : ButtonWord} (h : FitsIn v x) : FitsIn w x := by
  rw [fitsIn_iff] at *
  exact fun i hi => h i (hvw.trans hi)

/-- Writing the bit at the end of a word of `i` bits gives a word of `i + 1` bits (41_sync_reader.md R160). -/
theorem fitsIn_orBit_succ {i : Nat} {x : ButtonWord} (h : FitsIn i x) (b : Bool) (hi : i < 16) :
    FitsIn (i + 1) (orBit x b i) :=
  fitsIn_orBit (fitsIn_mono (Nat.le_succ i) h) b (Nat.lt_succ_self i) hi

/-- Where the bit was 0, the OR is a write of it (41_sync_reader.md R160). -/
theorem orBit_writes {i : Nat} {x : ButtonWord} (h : FitsIn i x) (b : Bool) (hi : i < 16) :
    (orBit x b i).getLsbD i = b := by
  rw [orBit_getLsbD _ _ _ _ hi, (fitsIn_iff i x).1 h i (Nat.le_refl i)]
  simp

/-- The WIDTH of a valid record, 44_top_control.md R250. -/
theorem width_bounds {p : Platform} {c : Cfg} (h : c.Valid p) : 11 ≤ c.w ∧ c.w ≤ 16 := by
  have hw : c.WidthOk := by
    simp only [Cfg.Valid, cfgValid, Bool.and_eq_true, decide_eq_true_eq, and_assoc] at h
    exact h.1
  unfold Cfg.WidthOk at hw
  omega

/-- An offered word is transferred, or nothing happens (43_state_differ.md R220, R221). -/
theorem offer_cases (w : EventWord) (s : State) :
    (portOpen s = true ∧ s.input.sinkReady = true ∧ offer w s = transfer w s) ∨
      ((portOpen s = false ∨ s.input.sinkReady = false) ∧ offer w s = s) := by
  unfold offer
  cases hp : portOpen s <;> cases hr : s.input.sinkReady <;> simp

/-- The program after a tick: the first run gives up one tick, and goes when it has no more (30_encoding.md R113). -/
theorem stimRest_cons (r : StimRun) (rs : List StimRun) :
    stimRest (r :: rs) = if r.n ≤ 1 then rs else { r with n := r.n - 1 } :: rs := rfl

/-- `take` of the tick, 44_top_control.md R255 step 6. -/
theorem take_iff (s : State) : take s = true ↔ s.now.sdState = sdsIdle ∧ s.now.handFull = true := by
  simp [take]

/-- Every operation but TOP_RUN answers a next state, whatever the state (TOP_RUN answers one exactly on a well-formed
record). -/
theorem exec_completes (i : Instr) (h : i ≠ .topRun) (s : State) : ∃ t, exec i s = .next t := by
  cases i
  case topRun => exact absurd rfl h
  case ssrClkEnd =>
    by_cases hw : s.now.ssrBit.toNat = s.cfg.w
    · exact ⟨_, if_pos hw⟩
    · exact ⟨_, if_neg hw⟩
  all_goals exact ⟨_, rfl⟩

end Sys2Proof.Machine
end

