-- ==== Sys2Proof/Laws/Tick.lean ====
section
/-! SUPPORT. What each unit does in a tick, in closed form: for every unit the one state its selected operation leaves,
written as an update of the fields that unit owns (44_top_control.md R256), and the TOP_RUN tick as their composition.
Later proofs cite these equations instead of unfolding a meaning or the decoder. -/

namespace Sys2Proof.Machine

/-! ### The ten conditions by name -/

theorem wf_iff (c : Cfg) (r : Regs) :
    WF c r ↔ WfPhase r ∧ WfSdState r ∧ WfRem r ∧ WfBusy c r ∧ WfIdle r ∧ WfSsrBit c r ∧ WfRequest c r ∧ WfMode c r ∧
      WfSdPos c r ∧ WfWords c r := by
  simp only [WF, wf, Bool.and_eq_true, decide_eq_true_eq, and_assoc]

theorem WF.phase {c : Cfg} {r : Regs} (h : WF c r) : WfPhase r := ((wf_iff c r).1 h).1
theorem WF.sdState {c : Cfg} {r : Regs} (h : WF c r) : WfSdState r := ((wf_iff c r).1 h).2.1
theorem WF.rem {c : Cfg} {r : Regs} (h : WF c r) : WfRem r := ((wf_iff c r).1 h).2.2.1
theorem WF.busy {c : Cfg} {r : Regs} (h : WF c r) : WfBusy c r := ((wf_iff c r).1 h).2.2.2.1
theorem WF.idle {c : Cfg} {r : Regs} (h : WF c r) : WfIdle r := ((wf_iff c r).1 h).2.2.2.2.1
theorem WF.ssrBit {c : Cfg} {r : Regs} (h : WF c r) : WfSsrBit c r := ((wf_iff c r).1 h).2.2.2.2.2.1
theorem WF.request {c : Cfg} {r : Regs} (h : WF c r) : WfRequest c r := ((wf_iff c r).1 h).2.2.2.2.2.2.1
theorem WF.mode {c : Cfg} {r : Regs} (h : WF c r) : WfMode c r := ((wf_iff c r).1 h).2.2.2.2.2.2.2.1
theorem WF.sdPos {c : Cfg} {r : Regs} (h : WF c r) : WfSdPos c r := ((wf_iff c r).1 h).2.2.2.2.2.2.2.2.1
theorem WF.words {c : Cfg} {r : Regs} (h : WF c r) : WfWords c r := ((wf_iff c r).1 h).2.2.2.2.2.2.2.2.2

theorem valid_iff (p : Platform) (c : Cfg) :
    c.Valid p ↔ c.WidthOk ∧ c.MapLenOk ∧ c.MapInWidth ∧ c.MapDistinct ∧ c.PollOk p ∧ c.BitPeriodOk ∧ c.ReservedZero := by
  simp only [Cfg.Valid, cfgValid, Bool.and_eq_true, decide_eq_true_eq, and_assoc]

/-! ### BS -/

/-- `bs_fire`, 44_top_control.md R255 step 1. -/
def fires (s : State) : Bool := s.now.bsBusy && s.now.bsRem == 1#16 && !s.input.abort

/-- What BS leaves. -/
def afterBs (s : State) : State :=
  { s with
    nxt := { s.nxt with
      bsBusy := if s.now.bsBusy && (s.input.abort || s.now.bsRem == 1#16) then false else s.nxt.bsBusy
      bsRem := if s.now.bsBusy && !s.input.abort && !(s.now.bsRem == 1#16) then s.now.bsRem - 1#16 else s.nxt.bsRem }
    sig := { s.sig with
      bsFire := fires s
      bsVal := if fires s = true ∧ s.now.bsKind = .sample then capture s.input.dataIn s.input.dataFault s.now.bsFb
        else s.sig.bsVal } }

theorem runBs_eq (s : State) : runBs s = .next (afterBs s) := by
  unfold runBs bsOsv
  rw [decode_bs]
  cases hb : s.now.bsBusy <;> cases ha : s.input.abort <;> cases h1 : (s.now.bsRem == 1#16) <;> cases hk : s.now.bsKind <;>
    simp [afterBs, fires, hb, ha, h1, hk, execBsIdle, execBsCancel, execBsCount, execBsFireDelay, execBsFireSample]

/-! ### POLL -/

/-- `poll_strobe`, 44_top_control.md R255 step 2. -/
def strobes (s : State) : Bool := s.cfg.mode == .sync && s.now.pollCnt == s.cfg.pollPeriod - 1#32

/-- What POLL leaves. -/
def afterPoll (s : State) : State :=
  { s with
    nxt := { s.nxt with
      pollCnt := if s.cfg.mode = .async ∨ s.now.pollCnt = s.cfg.pollPeriod - 1#32 then 0#32 else s.now.pollCnt + 1#32 }
    sig := { s.sig with pollStrobe := strobes s } }

theorem runPoll_eq (s : State) : runPoll s = .next (afterPoll s) := by
  unfold runPoll pollOsv
  rw [decode_poll]
  cases hm : s.cfg.mode <;> by_cases h1 : s.now.pollCnt = s.cfg.pollPeriod - 1#32 <;>
    simp [afterPoll, strobes, hm, h1, execPollOff, execPollCount, execPollStrobe]

/-! ### SSR -/

/-- What SSR leaves. -/
def afterSsr (s : State) : State :=
  if s.input.abort then ssrClear s
  else if s.now.ssrPhase = phIdle then
    if s.sig.pollStrobe then
      bsRequest .delay (tLh s.plat) false { s with nxt := { s.nxt with ssrPhase := phLatch, ssrBit := 0#5, ssrAcc := 0#16 } }
    else s
  else if s.sig.bsFire = false then s
  else if s.now.ssrPhase = phLatch then
    bsRequest .sample (tLs s.plat) true { s with nxt := { s.nxt with ssrPhase := phSettle } }
  else if s.now.ssrPhase = phClkHigh then
    if s.now.ssrBit.toNat = s.cfg.w then
      bsRequest .delay (tCl s.plat) false { s with nxt := { s.nxt with ssrPhase := phClkTail } }
    else bsRequest .sample (tCl s.plat) true { s with nxt := { s.nxt with ssrPhase := phClkLow } }
  else if s.now.ssrPhase = phClkTail then ssrClear (handWrite s.now.ssrAcc s)
  else
    bsRequest .delay (tCh s.plat) false
      { s with nxt := { s.nxt with
          ssrAcc := orBit s.now.ssrAcc (!s.sig.bsVal) s.now.ssrBit.toNat
          ssrBit := s.now.ssrBit + 1#5
          ssrPhase := phClkHigh } }

theorem runSsr_eq (s : State) (h : WfPhase s.now) : runSsr s = .next (afterSsr s) := by
  unfold runSsr ssrOsv
  rw [decode_ssr _ _ _ _ _ h]
  unfold afterSsr
  cases ha : s.input.abort <;> cases hf : s.sig.bsFire <;> cases hp : s.sig.pollStrobe <;>
    rcases h with h | h | h | h | h | h <;>
    simp [h, phIdle, phLatch, phSettle, phClkHigh, phClkLow, phClkTail, execSsrAbort, execSsrIdleHold, execSsrStart,
      execSsrWait, execSsrLatchEnd, execSsrSample, execSsrClkEnd, execSsrFinish] <;> split <;> rfl

/-! ### EDGE -/

/-- What EDGE leaves. -/
def afterEdge (s : State) : State :=
  { s with
    nxt := { s.nxt with edgePrev := if s.input.dataFault then s.nxt.edgePrev else s.input.dataIn }
    sig := { s.sig with
      startEdge := if s.input.dataFault then false else startEdgeSeen s.cfg s.now.edgePrev s.input.dataIn } }

theorem runEdge_eq (s : State) : runEdge s = .next (afterEdge s) := by
  unfold runEdge edgeOsv
  rw [decode_edge]
  cases hf : s.input.dataFault <;> simp [afterEdge, hf, execEdgeHold, execEdgeTrack]

/-! ### AFR -/

/-- What AFR leaves. -/
def afterAfr (s : State) : State :=
  if s.input.abort then afrClear s
  else if s.now.afrSampling = false then
    if s.sig.startEdge then
      bsRequest .sample (half s.cfg) false { s with nxt := { s.nxt with afrSampling := true, afrBit := 0#5, afrAcc := 0#16 } }
    else s
  else if s.sig.bsFire = false then s
  else if s.now.afrBit.toNat = s.cfg.w - 1 then
    afrClear (handWrite (orBit s.now.afrAcc s.sig.bsVal (s.cfg.w - 1))
      { s with nxt := { s.nxt with syncOut := if s.cfg.handshake then !s.now.syncOut else s.nxt.syncOut } })
  else
    bsRequest .sample s.cfg.bitPeriod false
      { s with nxt := { s.nxt with
          afrAcc := orBit s.now.afrAcc s.sig.bsVal s.now.afrBit.toNat
          afrBit := s.now.afrBit + 1#5 } }

theorem runAfr_eq (s : State) : runAfr s = .next (afterAfr s) := by
  unfold runAfr afrOsv
  rw [decode_afr]
  unfold afterAfr
  cases ha : s.input.abort <;> cases hs : s.now.afrSampling <;> cases hf : s.sig.bsFire <;>
    cases he : s.sig.startEdge <;> by_cases hl : s.now.afrBit.toNat = s.cfg.w - 1 <;>
    simp [hl, execAfrAbort, execAfrIdleHold, execAfrStart, execAfrWait, execAfrEdgeIgnored, execAfrSample, execAfrFinish]

/-! ### HAND -/

/-- What HAND leaves. -/
def afterHand (s : State) : State :=
  if s.sig.write then
    if s.now.handFull && !take s then setOverrun s
    else { s with nxt := { s.nxt with handWord := s.sig.hwWord, handFull := true } }
  else if take s then { s with nxt := { s.nxt with handFull := false } }
  else s

theorem take_full (s : State) (h : take s = true) : s.now.handFull = true := by
  simp only [take, Bool.and_eq_true] at h; exact h.2

theorem runHand_eq (s : State) : runHand s = .next (afterHand s) := by
  unfold runHand handOsv
  rw [decode_hand _ _ _ (take_full s)]
  unfold afterHand
  cases hw : s.sig.write <;> cases ht : take s <;> cases hf : s.now.handFull <;>
    simp [execHandNop, execHandWrite, execHandTake, execHandOverrun, execHandTakeWrite]


/-! ### SD -/

/-- What SD leaves. -/
def afterSd (s : State) : State :=
  if s.now.sdState = sdsIdle then
    if s.now.handFull then
      { s with nxt := { s.nxt with
        sdCur := s.now.handWord
        sdChg := s.now.prevWord ^^^ s.now.handWord
        sdPos := 0#5
        sdState := if 0 < s.cfg.len then sdsEmit else sdsSync } }
    else s
  else if s.now.sdState = sdsEmit then
    if chgHit s = false then sdAdvance s
    else if s.input.sinkReady then sdAdvance (transfer (currentReport s).word s)
    else s
  else if s.input.sinkReady then
    transfer Event.sync.word { s with nxt := { s.nxt with prevWord := s.now.sdCur, sdState := sdsIdle } }
  else s

theorem runSd_eq (s : State) (h : WfSdState s.now) : runSd s = .next (afterSd s) := by
  unfold runSd sdOsv
  rw [decode_sd _ _ _ _ _ h]
  unfold afterSd
  cases hr : s.input.sinkReady <;> cases hc : chgHit s <;> cases hf : s.now.handFull <;>
    by_cases hi : s.now.sdState = sdsIdle <;> by_cases he : s.now.sdState = sdsEmit <;>
    simp [hi, he, execSdIdleHold, execSdTake, execSdSkip, execSdReport, execSdReportWait, execSdSync, execSdSyncWait]

/-! ### The tick -/

/-- What every unit leaves, in the order of 44_top_control.md R255. -/
def afterTick (s : State) : State :=
  afterSd (afterHand (afterAfr (afterEdge (afterSsr (afterPoll (afterBs (beginTick s)))))))

/-! What no unit writes. -/

@[simp] theorem afterBs_now (s : State) : (afterBs s).now = s.now := rfl
@[simp] theorem afterBs_cfg (s : State) : (afterBs s).cfg = s.cfg := rfl
@[simp] theorem afterBs_plat (s : State) : (afterBs s).plat = s.plat := rfl
@[simp] theorem afterBs_stim (s : State) : (afterBs s).stim = s.stim := rfl
@[simp] theorem afterBs_tick (s : State) : (afterBs s).tick = s.tick := rfl
@[simp] theorem afterBs_trace (s : State) : (afterBs s).trace = s.trace := rfl
@[simp] theorem afterPoll_now (s : State) : (afterPoll s).now = s.now := rfl
@[simp] theorem afterPoll_cfg (s : State) : (afterPoll s).cfg = s.cfg := rfl
@[simp] theorem afterPoll_plat (s : State) : (afterPoll s).plat = s.plat := rfl
@[simp] theorem afterPoll_stim (s : State) : (afterPoll s).stim = s.stim := rfl
@[simp] theorem afterPoll_tick (s : State) : (afterPoll s).tick = s.tick := rfl
@[simp] theorem afterPoll_trace (s : State) : (afterPoll s).trace = s.trace := rfl
@[simp] theorem afterEdge_now (s : State) : (afterEdge s).now = s.now := rfl
@[simp] theorem afterEdge_cfg (s : State) : (afterEdge s).cfg = s.cfg := rfl
@[simp] theorem afterEdge_plat (s : State) : (afterEdge s).plat = s.plat := rfl
@[simp] theorem afterEdge_stim (s : State) : (afterEdge s).stim = s.stim := rfl
@[simp] theorem afterEdge_tick (s : State) : (afterEdge s).tick = s.tick := rfl
@[simp] theorem afterEdge_trace (s : State) : (afterEdge s).trace = s.trace := rfl

section
set_option linter.unusedSimpArgs false

theorem afterSsr_frame (s : State) :
    (afterSsr s).now = s.now ∧ (afterSsr s).cfg = s.cfg ∧ (afterSsr s).plat = s.plat ∧ (afterSsr s).stim = s.stim ∧
      (afterSsr s).tick = s.tick ∧ (afterSsr s).trace = s.trace := by
  unfold afterSsr; split_ifs <;> simp [ssrClear, bsRequest, handWrite]

theorem afterAfr_frame (s : State) :
    (afterAfr s).now = s.now ∧ (afterAfr s).cfg = s.cfg ∧ (afterAfr s).plat = s.plat ∧ (afterAfr s).stim = s.stim ∧
      (afterAfr s).tick = s.tick ∧ (afterAfr s).trace = s.trace := by
  unfold afterAfr; split_ifs <;> simp [afrClear, bsRequest, handWrite]

theorem afterHand_frame (s : State) :
    (afterHand s).now = s.now ∧ (afterHand s).cfg = s.cfg ∧ (afterHand s).plat = s.plat ∧ (afterHand s).stim = s.stim ∧
      (afterHand s).tick = s.tick ∧ (afterHand s).trace = s.trace := by
  unfold afterHand; split_ifs <;> simp [setOverrun]

theorem afterSd_frame (s : State) :
    (afterSd s).now = s.now ∧ (afterSd s).cfg = s.cfg ∧ (afterSd s).plat = s.plat ∧ (afterSd s).stim = s.stim ∧
      (afterSd s).tick = s.tick := by
  unfold afterSd; split_ifs <;> simp [sdAdvance, transfer]

end

@[simp] theorem afterSsr_now (s : State) : (afterSsr s).now = s.now := (afterSsr_frame s).1
@[simp] theorem afterSsr_cfg (s : State) : (afterSsr s).cfg = s.cfg := (afterSsr_frame s).2.1
@[simp] theorem afterSsr_plat (s : State) : (afterSsr s).plat = s.plat := (afterSsr_frame s).2.2.1
@[simp] theorem afterSsr_stim (s : State) : (afterSsr s).stim = s.stim := (afterSsr_frame s).2.2.2.1
@[simp] theorem afterSsr_tick (s : State) : (afterSsr s).tick = s.tick := (afterSsr_frame s).2.2.2.2.1
@[simp] theorem afterSsr_trace (s : State) : (afterSsr s).trace = s.trace := (afterSsr_frame s).2.2.2.2.2
@[simp] theorem afterAfr_now (s : State) : (afterAfr s).now = s.now := (afterAfr_frame s).1
@[simp] theorem afterAfr_cfg (s : State) : (afterAfr s).cfg = s.cfg := (afterAfr_frame s).2.1
@[simp] theorem afterAfr_plat (s : State) : (afterAfr s).plat = s.plat := (afterAfr_frame s).2.2.1
@[simp] theorem afterAfr_stim (s : State) : (afterAfr s).stim = s.stim := (afterAfr_frame s).2.2.2.1
@[simp] theorem afterAfr_tick (s : State) : (afterAfr s).tick = s.tick := (afterAfr_frame s).2.2.2.2.1
@[simp] theorem afterAfr_trace (s : State) : (afterAfr s).trace = s.trace := (afterAfr_frame s).2.2.2.2.2
@[simp] theorem afterHand_now (s : State) : (afterHand s).now = s.now := (afterHand_frame s).1
@[simp] theorem afterHand_cfg (s : State) : (afterHand s).cfg = s.cfg := (afterHand_frame s).2.1
@[simp] theorem afterHand_plat (s : State) : (afterHand s).plat = s.plat := (afterHand_frame s).2.2.1
@[simp] theorem afterHand_stim (s : State) : (afterHand s).stim = s.stim := (afterHand_frame s).2.2.2.1
@[simp] theorem afterHand_tick (s : State) : (afterHand s).tick = s.tick := (afterHand_frame s).2.2.2.2.1
@[simp] theorem afterHand_trace (s : State) : (afterHand s).trace = s.trace := (afterHand_frame s).2.2.2.2.2
@[simp] theorem afterSd_now (s : State) : (afterSd s).now = s.now := (afterSd_frame s).1
@[simp] theorem afterSd_cfg (s : State) : (afterSd s).cfg = s.cfg := (afterSd_frame s).2.1
@[simp] theorem afterSd_plat (s : State) : (afterSd s).plat = s.plat := (afterSd_frame s).2.2.1
@[simp] theorem afterSd_stim (s : State) : (afterSd s).stim = s.stim := (afterSd_frame s).2.2.2.1
@[simp] theorem afterSd_tick (s : State) : (afterSd s).tick = s.tick := (afterSd_frame s).2.2.2.2


/-- The units of a well-formed tick each find their operation, and leave what `afterTick` says. -/
theorem runUnits_tick (s : State) (h : WF s.cfg s.now) : runUnits tickUnits (beginTick s) = .next (afterTick s) := by
  simp only [runUnits, tickUnits, runUnit, runBs_eq, runPoll_eq, runEdge_eq, runAfr_eq, runHand_eq]
  rw [runSsr_eq _ (by simpa using h.phase)]
  simp only []
  rw [runSd_eq _ (by simpa using h.sdState)]
  rfl

end Sys2Proof.Machine
end

