-- ==== Sys2Proof/Laws/Frames.lean ====
section
/-! SUPPORT. The frame of each unit (44_top_control.md R256): a unit leaves every register and every wire that it does not
own as it finds it. One lemma per unit and field, for simp; with them a register of `afterTick s` is read off its owner. -/

namespace Sys2Proof.Machine

/-! ### BS -/

@[simp] theorem afterBs_input (s : State) : (afterBs s).input = s.input := rfl
@[simp] theorem afterBs_cfgIn (s : State) : (afterBs s).cfgIn = s.cfgIn := rfl
@[simp] theorem afterBs_bsKind (s : State) : (afterBs s).nxt.bsKind = s.nxt.bsKind := rfl
@[simp] theorem afterBs_bsFb (s : State) : (afterBs s).nxt.bsFb = s.nxt.bsFb := rfl
@[simp] theorem afterBs_pollCnt (s : State) : (afterBs s).nxt.pollCnt = s.nxt.pollCnt := rfl
@[simp] theorem afterBs_ssrPhase (s : State) : (afterBs s).nxt.ssrPhase = s.nxt.ssrPhase := rfl
@[simp] theorem afterBs_ssrBit (s : State) : (afterBs s).nxt.ssrBit = s.nxt.ssrBit := rfl
@[simp] theorem afterBs_ssrAcc (s : State) : (afterBs s).nxt.ssrAcc = s.nxt.ssrAcc := rfl
@[simp] theorem afterBs_edgePrev (s : State) : (afterBs s).nxt.edgePrev = s.nxt.edgePrev := rfl
@[simp] theorem afterBs_afrSampling (s : State) : (afterBs s).nxt.afrSampling = s.nxt.afrSampling := rfl
@[simp] theorem afterBs_afrBit (s : State) : (afterBs s).nxt.afrBit = s.nxt.afrBit := rfl
@[simp] theorem afterBs_afrAcc (s : State) : (afterBs s).nxt.afrAcc = s.nxt.afrAcc := rfl
@[simp] theorem afterBs_syncOut (s : State) : (afterBs s).nxt.syncOut = s.nxt.syncOut := rfl
@[simp] theorem afterBs_handFull (s : State) : (afterBs s).nxt.handFull = s.nxt.handFull := rfl
@[simp] theorem afterBs_handWord (s : State) : (afterBs s).nxt.handWord = s.nxt.handWord := rfl
@[simp] theorem afterBs_sdState (s : State) : (afterBs s).nxt.sdState = s.nxt.sdState := rfl
@[simp] theorem afterBs_sdCur (s : State) : (afterBs s).nxt.sdCur = s.nxt.sdCur := rfl
@[simp] theorem afterBs_sdChg (s : State) : (afterBs s).nxt.sdChg = s.nxt.sdChg := rfl
@[simp] theorem afterBs_sdPos (s : State) : (afterBs s).nxt.sdPos = s.nxt.sdPos := rfl
@[simp] theorem afterBs_prevWord (s : State) : (afterBs s).nxt.prevWord = s.nxt.prevWord := rfl
@[simp] theorem afterBs_overrun (s : State) : (afterBs s).nxt.overrun = s.nxt.overrun := rfl
@[simp] theorem afterBs_sig_pollStrobe (s : State) : (afterBs s).sig.pollStrobe = s.sig.pollStrobe := rfl
@[simp] theorem afterBs_sig_startEdge (s : State) : (afterBs s).sig.startEdge = s.sig.startEdge := rfl
@[simp] theorem afterBs_sig_write (s : State) : (afterBs s).sig.write = s.sig.write := rfl
@[simp] theorem afterBs_sig_hwWord (s : State) : (afterBs s).sig.hwWord = s.sig.hwWord := rfl

/-! ### POLL -/

@[simp] theorem afterPoll_input (s : State) : (afterPoll s).input = s.input := rfl
@[simp] theorem afterPoll_cfgIn (s : State) : (afterPoll s).cfgIn = s.cfgIn := rfl
@[simp] theorem afterPoll_bsBusy (s : State) : (afterPoll s).nxt.bsBusy = s.nxt.bsBusy := rfl
@[simp] theorem afterPoll_bsKind (s : State) : (afterPoll s).nxt.bsKind = s.nxt.bsKind := rfl
@[simp] theorem afterPoll_bsRem (s : State) : (afterPoll s).nxt.bsRem = s.nxt.bsRem := rfl
@[simp] theorem afterPoll_bsFb (s : State) : (afterPoll s).nxt.bsFb = s.nxt.bsFb := rfl
@[simp] theorem afterPoll_ssrPhase (s : State) : (afterPoll s).nxt.ssrPhase = s.nxt.ssrPhase := rfl
@[simp] theorem afterPoll_ssrBit (s : State) : (afterPoll s).nxt.ssrBit = s.nxt.ssrBit := rfl
@[simp] theorem afterPoll_ssrAcc (s : State) : (afterPoll s).nxt.ssrAcc = s.nxt.ssrAcc := rfl
@[simp] theorem afterPoll_edgePrev (s : State) : (afterPoll s).nxt.edgePrev = s.nxt.edgePrev := rfl
@[simp] theorem afterPoll_afrSampling (s : State) : (afterPoll s).nxt.afrSampling = s.nxt.afrSampling := rfl
@[simp] theorem afterPoll_afrBit (s : State) : (afterPoll s).nxt.afrBit = s.nxt.afrBit := rfl
@[simp] theorem afterPoll_afrAcc (s : State) : (afterPoll s).nxt.afrAcc = s.nxt.afrAcc := rfl
@[simp] theorem afterPoll_syncOut (s : State) : (afterPoll s).nxt.syncOut = s.nxt.syncOut := rfl
@[simp] theorem afterPoll_handFull (s : State) : (afterPoll s).nxt.handFull = s.nxt.handFull := rfl
@[simp] theorem afterPoll_handWord (s : State) : (afterPoll s).nxt.handWord = s.nxt.handWord := rfl
@[simp] theorem afterPoll_sdState (s : State) : (afterPoll s).nxt.sdState = s.nxt.sdState := rfl
@[simp] theorem afterPoll_sdCur (s : State) : (afterPoll s).nxt.sdCur = s.nxt.sdCur := rfl
@[simp] theorem afterPoll_sdChg (s : State) : (afterPoll s).nxt.sdChg = s.nxt.sdChg := rfl
@[simp] theorem afterPoll_sdPos (s : State) : (afterPoll s).nxt.sdPos = s.nxt.sdPos := rfl
@[simp] theorem afterPoll_prevWord (s : State) : (afterPoll s).nxt.prevWord = s.nxt.prevWord := rfl
@[simp] theorem afterPoll_overrun (s : State) : (afterPoll s).nxt.overrun = s.nxt.overrun := rfl
@[simp] theorem afterPoll_sig_bsFire (s : State) : (afterPoll s).sig.bsFire = s.sig.bsFire := rfl
@[simp] theorem afterPoll_sig_bsVal (s : State) : (afterPoll s).sig.bsVal = s.sig.bsVal := rfl
@[simp] theorem afterPoll_sig_startEdge (s : State) : (afterPoll s).sig.startEdge = s.sig.startEdge := rfl
@[simp] theorem afterPoll_sig_write (s : State) : (afterPoll s).sig.write = s.sig.write := rfl
@[simp] theorem afterPoll_sig_hwWord (s : State) : (afterPoll s).sig.hwWord = s.sig.hwWord := rfl

/-! ### SSR -/

@[simp] theorem afterSsr_input (s : State) : (afterSsr s).input = s.input := by simp only [State.input, afterSsr_stim, afterSsr_tick]
@[simp] theorem afterSsr_cfgIn (s : State) : (afterSsr s).cfgIn = s.cfgIn := by simp only [State.cfgIn, afterSsr_stim, afterSsr_cfg]
@[simp] theorem afterSsr_pollCnt (s : State) : (afterSsr s).nxt.pollCnt = s.nxt.pollCnt := by unfold afterSsr; split_ifs <;> rfl
@[simp] theorem afterSsr_edgePrev (s : State) : (afterSsr s).nxt.edgePrev = s.nxt.edgePrev := by unfold afterSsr; split_ifs <;> rfl
@[simp] theorem afterSsr_afrSampling (s : State) : (afterSsr s).nxt.afrSampling = s.nxt.afrSampling := by unfold afterSsr; split_ifs <;> rfl
@[simp] theorem afterSsr_afrBit (s : State) : (afterSsr s).nxt.afrBit = s.nxt.afrBit := by unfold afterSsr; split_ifs <;> rfl
@[simp] theorem afterSsr_afrAcc (s : State) : (afterSsr s).nxt.afrAcc = s.nxt.afrAcc := by unfold afterSsr; split_ifs <;> rfl
@[simp] theorem afterSsr_syncOut (s : State) : (afterSsr s).nxt.syncOut = s.nxt.syncOut := by unfold afterSsr; split_ifs <;> rfl
@[simp] theorem afterSsr_handFull (s : State) : (afterSsr s).nxt.handFull = s.nxt.handFull := by unfold afterSsr; split_ifs <;> rfl
@[simp] theorem afterSsr_handWord (s : State) : (afterSsr s).nxt.handWord = s.nxt.handWord := by unfold afterSsr; split_ifs <;> rfl
@[simp] theorem afterSsr_sdState (s : State) : (afterSsr s).nxt.sdState = s.nxt.sdState := by unfold afterSsr; split_ifs <;> rfl
@[simp] theorem afterSsr_sdCur (s : State) : (afterSsr s).nxt.sdCur = s.nxt.sdCur := by unfold afterSsr; split_ifs <;> rfl
@[simp] theorem afterSsr_sdChg (s : State) : (afterSsr s).nxt.sdChg = s.nxt.sdChg := by unfold afterSsr; split_ifs <;> rfl
@[simp] theorem afterSsr_sdPos (s : State) : (afterSsr s).nxt.sdPos = s.nxt.sdPos := by unfold afterSsr; split_ifs <;> rfl
@[simp] theorem afterSsr_prevWord (s : State) : (afterSsr s).nxt.prevWord = s.nxt.prevWord := by unfold afterSsr; split_ifs <;> rfl
@[simp] theorem afterSsr_overrun (s : State) : (afterSsr s).nxt.overrun = s.nxt.overrun := by unfold afterSsr; split_ifs <;> rfl
@[simp] theorem afterSsr_sig_bsFire (s : State) : (afterSsr s).sig.bsFire = s.sig.bsFire := by unfold afterSsr; split_ifs <;> rfl
@[simp] theorem afterSsr_sig_bsVal (s : State) : (afterSsr s).sig.bsVal = s.sig.bsVal := by unfold afterSsr; split_ifs <;> rfl
@[simp] theorem afterSsr_sig_pollStrobe (s : State) : (afterSsr s).sig.pollStrobe = s.sig.pollStrobe := by unfold afterSsr; split_ifs <;> rfl
@[simp] theorem afterSsr_sig_startEdge (s : State) : (afterSsr s).sig.startEdge = s.sig.startEdge := by unfold afterSsr; split_ifs <;> rfl

/-! ### EDGE -/

@[simp] theorem afterEdge_input (s : State) : (afterEdge s).input = s.input := rfl
@[simp] theorem afterEdge_cfgIn (s : State) : (afterEdge s).cfgIn = s.cfgIn := rfl
@[simp] theorem afterEdge_bsBusy (s : State) : (afterEdge s).nxt.bsBusy = s.nxt.bsBusy := rfl
@[simp] theorem afterEdge_bsKind (s : State) : (afterEdge s).nxt.bsKind = s.nxt.bsKind := rfl
@[simp] theorem afterEdge_bsRem (s : State) : (afterEdge s).nxt.bsRem = s.nxt.bsRem := rfl
@[simp] theorem afterEdge_bsFb (s : State) : (afterEdge s).nxt.bsFb = s.nxt.bsFb := rfl
@[simp] theorem afterEdge_pollCnt (s : State) : (afterEdge s).nxt.pollCnt = s.nxt.pollCnt := rfl
@[simp] theorem afterEdge_ssrPhase (s : State) : (afterEdge s).nxt.ssrPhase = s.nxt.ssrPhase := rfl
@[simp] theorem afterEdge_ssrBit (s : State) : (afterEdge s).nxt.ssrBit = s.nxt.ssrBit := rfl
@[simp] theorem afterEdge_ssrAcc (s : State) : (afterEdge s).nxt.ssrAcc = s.nxt.ssrAcc := rfl
@[simp] theorem afterEdge_afrSampling (s : State) : (afterEdge s).nxt.afrSampling = s.nxt.afrSampling := rfl
@[simp] theorem afterEdge_afrBit (s : State) : (afterEdge s).nxt.afrBit = s.nxt.afrBit := rfl
@[simp] theorem afterEdge_afrAcc (s : State) : (afterEdge s).nxt.afrAcc = s.nxt.afrAcc := rfl
@[simp] theorem afterEdge_syncOut (s : State) : (afterEdge s).nxt.syncOut = s.nxt.syncOut := rfl
@[simp] theorem afterEdge_handFull (s : State) : (afterEdge s).nxt.handFull = s.nxt.handFull := rfl
@[simp] theorem afterEdge_handWord (s : State) : (afterEdge s).nxt.handWord = s.nxt.handWord := rfl
@[simp] theorem afterEdge_sdState (s : State) : (afterEdge s).nxt.sdState = s.nxt.sdState := rfl
@[simp] theorem afterEdge_sdCur (s : State) : (afterEdge s).nxt.sdCur = s.nxt.sdCur := rfl
@[simp] theorem afterEdge_sdChg (s : State) : (afterEdge s).nxt.sdChg = s.nxt.sdChg := rfl
@[simp] theorem afterEdge_sdPos (s : State) : (afterEdge s).nxt.sdPos = s.nxt.sdPos := rfl
@[simp] theorem afterEdge_prevWord (s : State) : (afterEdge s).nxt.prevWord = s.nxt.prevWord := rfl
@[simp] theorem afterEdge_overrun (s : State) : (afterEdge s).nxt.overrun = s.nxt.overrun := rfl
@[simp] theorem afterEdge_sig_bsFire (s : State) : (afterEdge s).sig.bsFire = s.sig.bsFire := rfl
@[simp] theorem afterEdge_sig_bsVal (s : State) : (afterEdge s).sig.bsVal = s.sig.bsVal := rfl
@[simp] theorem afterEdge_sig_pollStrobe (s : State) : (afterEdge s).sig.pollStrobe = s.sig.pollStrobe := rfl
@[simp] theorem afterEdge_sig_write (s : State) : (afterEdge s).sig.write = s.sig.write := rfl
@[simp] theorem afterEdge_sig_hwWord (s : State) : (afterEdge s).sig.hwWord = s.sig.hwWord := rfl

/-! ### AFR -/

@[simp] theorem afterAfr_input (s : State) : (afterAfr s).input = s.input := by simp only [State.input, afterAfr_stim, afterAfr_tick]
@[simp] theorem afterAfr_cfgIn (s : State) : (afterAfr s).cfgIn = s.cfgIn := by simp only [State.cfgIn, afterAfr_stim, afterAfr_cfg]
@[simp] theorem afterAfr_pollCnt (s : State) : (afterAfr s).nxt.pollCnt = s.nxt.pollCnt := by unfold afterAfr; split_ifs <;> rfl
@[simp] theorem afterAfr_ssrPhase (s : State) : (afterAfr s).nxt.ssrPhase = s.nxt.ssrPhase := by unfold afterAfr; split_ifs <;> rfl
@[simp] theorem afterAfr_ssrBit (s : State) : (afterAfr s).nxt.ssrBit = s.nxt.ssrBit := by unfold afterAfr; split_ifs <;> rfl
@[simp] theorem afterAfr_ssrAcc (s : State) : (afterAfr s).nxt.ssrAcc = s.nxt.ssrAcc := by unfold afterAfr; split_ifs <;> rfl
@[simp] theorem afterAfr_edgePrev (s : State) : (afterAfr s).nxt.edgePrev = s.nxt.edgePrev := by unfold afterAfr; split_ifs <;> rfl
@[simp] theorem afterAfr_handFull (s : State) : (afterAfr s).nxt.handFull = s.nxt.handFull := by unfold afterAfr; split_ifs <;> rfl
@[simp] theorem afterAfr_handWord (s : State) : (afterAfr s).nxt.handWord = s.nxt.handWord := by unfold afterAfr; split_ifs <;> rfl
@[simp] theorem afterAfr_sdState (s : State) : (afterAfr s).nxt.sdState = s.nxt.sdState := by unfold afterAfr; split_ifs <;> rfl
@[simp] theorem afterAfr_sdCur (s : State) : (afterAfr s).nxt.sdCur = s.nxt.sdCur := by unfold afterAfr; split_ifs <;> rfl
@[simp] theorem afterAfr_sdChg (s : State) : (afterAfr s).nxt.sdChg = s.nxt.sdChg := by unfold afterAfr; split_ifs <;> rfl
@[simp] theorem afterAfr_sdPos (s : State) : (afterAfr s).nxt.sdPos = s.nxt.sdPos := by unfold afterAfr; split_ifs <;> rfl
@[simp] theorem afterAfr_prevWord (s : State) : (afterAfr s).nxt.prevWord = s.nxt.prevWord := by unfold afterAfr; split_ifs <;> rfl
@[simp] theorem afterAfr_overrun (s : State) : (afterAfr s).nxt.overrun = s.nxt.overrun := by unfold afterAfr; split_ifs <;> rfl
@[simp] theorem afterAfr_sig_bsFire (s : State) : (afterAfr s).sig.bsFire = s.sig.bsFire := by unfold afterAfr; split_ifs <;> rfl
@[simp] theorem afterAfr_sig_bsVal (s : State) : (afterAfr s).sig.bsVal = s.sig.bsVal := by unfold afterAfr; split_ifs <;> rfl
@[simp] theorem afterAfr_sig_pollStrobe (s : State) : (afterAfr s).sig.pollStrobe = s.sig.pollStrobe := by unfold afterAfr; split_ifs <;> rfl
@[simp] theorem afterAfr_sig_startEdge (s : State) : (afterAfr s).sig.startEdge = s.sig.startEdge := by unfold afterAfr; split_ifs <;> rfl

/-! ### HAND -/

@[simp] theorem afterHand_input (s : State) : (afterHand s).input = s.input := by simp only [State.input, afterHand_stim, afterHand_tick]
@[simp] theorem afterHand_cfgIn (s : State) : (afterHand s).cfgIn = s.cfgIn := by simp only [State.cfgIn, afterHand_stim, afterHand_cfg]
@[simp] theorem afterHand_bsBusy (s : State) : (afterHand s).nxt.bsBusy = s.nxt.bsBusy := by unfold afterHand; split_ifs <;> rfl
@[simp] theorem afterHand_bsKind (s : State) : (afterHand s).nxt.bsKind = s.nxt.bsKind := by unfold afterHand; split_ifs <;> rfl
@[simp] theorem afterHand_bsRem (s : State) : (afterHand s).nxt.bsRem = s.nxt.bsRem := by unfold afterHand; split_ifs <;> rfl
@[simp] theorem afterHand_bsFb (s : State) : (afterHand s).nxt.bsFb = s.nxt.bsFb := by unfold afterHand; split_ifs <;> rfl
@[simp] theorem afterHand_pollCnt (s : State) : (afterHand s).nxt.pollCnt = s.nxt.pollCnt := by unfold afterHand; split_ifs <;> rfl
@[simp] theorem afterHand_ssrPhase (s : State) : (afterHand s).nxt.ssrPhase = s.nxt.ssrPhase := by unfold afterHand; split_ifs <;> rfl
@[simp] theorem afterHand_ssrBit (s : State) : (afterHand s).nxt.ssrBit = s.nxt.ssrBit := by unfold afterHand; split_ifs <;> rfl
@[simp] theorem afterHand_ssrAcc (s : State) : (afterHand s).nxt.ssrAcc = s.nxt.ssrAcc := by unfold afterHand; split_ifs <;> rfl
@[simp] theorem afterHand_edgePrev (s : State) : (afterHand s).nxt.edgePrev = s.nxt.edgePrev := by unfold afterHand; split_ifs <;> rfl
@[simp] theorem afterHand_afrSampling (s : State) : (afterHand s).nxt.afrSampling = s.nxt.afrSampling := by unfold afterHand; split_ifs <;> rfl
@[simp] theorem afterHand_afrBit (s : State) : (afterHand s).nxt.afrBit = s.nxt.afrBit := by unfold afterHand; split_ifs <;> rfl
@[simp] theorem afterHand_afrAcc (s : State) : (afterHand s).nxt.afrAcc = s.nxt.afrAcc := by unfold afterHand; split_ifs <;> rfl
@[simp] theorem afterHand_syncOut (s : State) : (afterHand s).nxt.syncOut = s.nxt.syncOut := by unfold afterHand; split_ifs <;> rfl
@[simp] theorem afterHand_sdState (s : State) : (afterHand s).nxt.sdState = s.nxt.sdState := by unfold afterHand; split_ifs <;> rfl
@[simp] theorem afterHand_sdCur (s : State) : (afterHand s).nxt.sdCur = s.nxt.sdCur := by unfold afterHand; split_ifs <;> rfl
@[simp] theorem afterHand_sdChg (s : State) : (afterHand s).nxt.sdChg = s.nxt.sdChg := by unfold afterHand; split_ifs <;> rfl
@[simp] theorem afterHand_sdPos (s : State) : (afterHand s).nxt.sdPos = s.nxt.sdPos := by unfold afterHand; split_ifs <;> rfl
@[simp] theorem afterHand_prevWord (s : State) : (afterHand s).nxt.prevWord = s.nxt.prevWord := by unfold afterHand; split_ifs <;> rfl
@[simp] theorem afterHand_sig_bsFire (s : State) : (afterHand s).sig.bsFire = s.sig.bsFire := by unfold afterHand; split_ifs <;> rfl
@[simp] theorem afterHand_sig_bsVal (s : State) : (afterHand s).sig.bsVal = s.sig.bsVal := by unfold afterHand; split_ifs <;> rfl
@[simp] theorem afterHand_sig_pollStrobe (s : State) : (afterHand s).sig.pollStrobe = s.sig.pollStrobe := by unfold afterHand; split_ifs <;> rfl
@[simp] theorem afterHand_sig_startEdge (s : State) : (afterHand s).sig.startEdge = s.sig.startEdge := by unfold afterHand; split_ifs <;> rfl
@[simp] theorem afterHand_sig_write (s : State) : (afterHand s).sig.write = s.sig.write := by unfold afterHand; split_ifs <;> rfl
@[simp] theorem afterHand_sig_hwWord (s : State) : (afterHand s).sig.hwWord = s.sig.hwWord := by unfold afterHand; split_ifs <;> rfl

/-! ### SD -/

@[simp] theorem afterSd_input (s : State) : (afterSd s).input = s.input := by simp only [State.input, afterSd_stim, afterSd_tick]
@[simp] theorem afterSd_cfgIn (s : State) : (afterSd s).cfgIn = s.cfgIn := by simp only [State.cfgIn, afterSd_stim, afterSd_cfg]
@[simp] theorem afterSd_bsBusy (s : State) : (afterSd s).nxt.bsBusy = s.nxt.bsBusy := by unfold afterSd; split_ifs <;> rfl
@[simp] theorem afterSd_bsKind (s : State) : (afterSd s).nxt.bsKind = s.nxt.bsKind := by unfold afterSd; split_ifs <;> rfl
@[simp] theorem afterSd_bsRem (s : State) : (afterSd s).nxt.bsRem = s.nxt.bsRem := by unfold afterSd; split_ifs <;> rfl
@[simp] theorem afterSd_bsFb (s : State) : (afterSd s).nxt.bsFb = s.nxt.bsFb := by unfold afterSd; split_ifs <;> rfl
@[simp] theorem afterSd_pollCnt (s : State) : (afterSd s).nxt.pollCnt = s.nxt.pollCnt := by unfold afterSd; split_ifs <;> rfl
@[simp] theorem afterSd_ssrPhase (s : State) : (afterSd s).nxt.ssrPhase = s.nxt.ssrPhase := by unfold afterSd; split_ifs <;> rfl
@[simp] theorem afterSd_ssrBit (s : State) : (afterSd s).nxt.ssrBit = s.nxt.ssrBit := by unfold afterSd; split_ifs <;> rfl
@[simp] theorem afterSd_ssrAcc (s : State) : (afterSd s).nxt.ssrAcc = s.nxt.ssrAcc := by unfold afterSd; split_ifs <;> rfl
@[simp] theorem afterSd_edgePrev (s : State) : (afterSd s).nxt.edgePrev = s.nxt.edgePrev := by unfold afterSd; split_ifs <;> rfl
@[simp] theorem afterSd_afrSampling (s : State) : (afterSd s).nxt.afrSampling = s.nxt.afrSampling := by unfold afterSd; split_ifs <;> rfl
@[simp] theorem afterSd_afrBit (s : State) : (afterSd s).nxt.afrBit = s.nxt.afrBit := by unfold afterSd; split_ifs <;> rfl
@[simp] theorem afterSd_afrAcc (s : State) : (afterSd s).nxt.afrAcc = s.nxt.afrAcc := by unfold afterSd; split_ifs <;> rfl
@[simp] theorem afterSd_syncOut (s : State) : (afterSd s).nxt.syncOut = s.nxt.syncOut := by unfold afterSd; split_ifs <;> rfl
@[simp] theorem afterSd_handFull (s : State) : (afterSd s).nxt.handFull = s.nxt.handFull := by unfold afterSd; split_ifs <;> rfl
@[simp] theorem afterSd_handWord (s : State) : (afterSd s).nxt.handWord = s.nxt.handWord := by unfold afterSd; split_ifs <;> rfl
@[simp] theorem afterSd_overrun (s : State) : (afterSd s).nxt.overrun = s.nxt.overrun := by unfold afterSd; split_ifs <;> rfl
@[simp] theorem afterSd_sig_bsFire (s : State) : (afterSd s).sig.bsFire = s.sig.bsFire := by unfold afterSd; split_ifs <;> rfl
@[simp] theorem afterSd_sig_bsVal (s : State) : (afterSd s).sig.bsVal = s.sig.bsVal := by unfold afterSd; split_ifs <;> rfl
@[simp] theorem afterSd_sig_pollStrobe (s : State) : (afterSd s).sig.pollStrobe = s.sig.pollStrobe := by unfold afterSd; split_ifs <;> rfl
@[simp] theorem afterSd_sig_startEdge (s : State) : (afterSd s).sig.startEdge = s.sig.startEdge := by unfold afterSd; split_ifs <;> rfl
@[simp] theorem afterSd_sig_write (s : State) : (afterSd s).sig.write = s.sig.write := by unfold afterSd; split_ifs <;> rfl
@[simp] theorem afterSd_sig_hwWord (s : State) : (afterSd s).sig.hwWord = s.sig.hwWord := by unfold afterSd; split_ifs <;> rfl

@[simp] theorem beginTick_input (s : State) : (beginTick s).input = s.input := rfl
@[simp] theorem beginTick_cfgIn (s : State) : (beginTick s).cfgIn = s.cfgIn := rfl

end Sys2Proof.Machine
end

