-- ==== Sys2Proof/Laws/Step.lean ====
section
/-! SUPPORT. One step, by the kind of tick (60_exceptions.md R290): a refused tick, a reset tick, an inert tick, a faulting
tick and a running tick; and runs of steps. -/

namespace Sys2Proof.Machine

theorem decode_topOsv (s : State) :
    decode (.osv (topOsv s)) =
      .ok (if s.input.rst = true then .topReset else if s.cfgIn.Valid s.plat then .topRun else .topInert) := by
  unfold topOsv
  rw [decode_top]

/-- An accepted step is TOP's operation and then the tick boundary. -/
theorem step_accepted (s : State) (h : s.Accepted) (i : Instr) (hi : decode (.osv (topOsv s)) = .ok i) :
    step s = match exec i s with
      | .next s' => .next (tickBoundary s')
      | .fault f => .fault f
      | .refused r => .refused r := by
  unfold step
  rw [if_neg (by simpa using h.1), if_neg (by rintro ⟨a, b⟩; exact b (h.2 a)), hi]
  all_goals rfl

/-- In an accepted tick the port is open by the record held: the one presented with `rst` = 0 is the same
(43_state_differ.md R220). -/
theorem portOpen_accepted {s : State} (h : s.Accepted) : portOpen s = (!s.input.rst && cfgValid s.plat s.cfg) := by
  unfold portOpen
  cases hr : s.input.rst with
  | true => rfl
  | false => rw [h.2 hr]

theorem step_reset (s : State) (hp : s.plat.InRange) (hr : s.input.rst = true) :
    step s = .next (tickBoundary { s with cfg := s.cfgIn, nxt := Regs.reset s.cfgIn }) := by
  rw [step_accepted s ⟨hp, by simp [hr]⟩ .topReset (by simp [decode_topOsv, hr])]
  rfl

theorem step_inert (s : State) (h : s.Accepted) (hr : s.input.rst = false) (hv : ¬ s.cfg.Valid s.plat) :
    step s = .next (tickBoundary { s with nxt := Regs.reset s.cfg }) := by
  rw [step_accepted s h .topInert (by rw [decode_topOsv, h.2 hr, hr, if_neg (by simp), if_neg hv])]
  rfl

theorem step_topRun (s : State) (h : s.Accepted) (hr : s.input.rst = false) (hv : s.cfg.Valid s.plat) :
    decode (.osv (topOsv s)) = .ok .topRun := by
  rw [decode_topOsv, h.2 hr, hr, if_neg (by simp), if_pos hv]

theorem execTopRun_wf (s : State) (h : WF s.cfg s.now) : execTopRun s = .next (afterTick s) := by
  unfold execTopRun; rw [if_pos h, runUnits_tick s h]

theorem step_running (s : State) (h : s.Running) : step s = .next (tickBoundary (afterTick s)) := by
  rw [step_accepted s h.1 .topRun (step_topRun s h.1 h.2.1 h.2.2.1)]
  simp only [exec, execTopRun_wf s h.2.2.2]

/-- The kinds of tick: a step that answers a next state is a reset tick, an inert tick or a running tick. -/
theorem step_cases {s t : State} (h : step s = .next t) :
    s.Accepted ∧
    ((s.input.rst = true ∧ t = tickBoundary { s with cfg := s.cfgIn, nxt := Regs.reset s.cfgIn }) ∨
     (s.input.rst = false ∧ ¬ s.cfg.Valid s.plat ∧ t = tickBoundary { s with nxt := Regs.reset s.cfg }) ∨
     (s.Running ∧ t = tickBoundary (afterTick s))) := by
  have hp : s.plat.InRange := by
    by_contra hp; unfold step at h; rw [if_pos hp] at h; cases h
  have ha : s.Accepted := by
    refine ⟨hp, fun hr => ?_⟩
    by_contra hc; unfold step at h; rw [if_neg (by simpa using hp), if_pos ⟨hr, hc⟩] at h; cases h
  refine ⟨ha, ?_⟩
  cases hr : s.input.rst with
  | true => rw [step_reset s hp hr] at h; cases h; exact .inl ⟨rfl, rfl⟩
  | false =>
    by_cases hv : s.cfg.Valid s.plat
    · by_cases hw : WF s.cfg s.now
      · have hR : s.Running := ⟨ha, hr, hv, hw⟩
        rw [step_running s hR] at h; cases h; exact .inr (.inr ⟨hR, rfl⟩)
      · rw [step_accepted s ha .topRun (step_topRun s ha hr hv)] at h
        simp only [exec, execTopRun, if_neg hw] at h
        cases h
    · rw [step_inert s ha hr hv] at h; cases h; exact .inr (.inl ⟨rfl, hv, rfl⟩)

theorem step_faults (s : State) (h : s.Accepted) (hr : s.input.rst = false) (hv : s.cfg.Valid s.plat)
    (hw : ¬ WF s.cfg s.now) : step s = .fault .unreachable := by
  rw [step_accepted s h .topRun (step_topRun s h hr hv)]
  simp only [exec, execTopRun, if_neg hw]

/-! ### What no unit of a tick writes -/
@[simp] theorem afterTick_plat (s : State) : (afterTick s).plat = s.plat := by simp [afterTick]
@[simp] theorem afterTick_cfg (s : State) : (afterTick s).cfg = s.cfg := by simp [afterTick]
@[simp] theorem afterTick_stim (s : State) : (afterTick s).stim = s.stim := by simp [afterTick]
@[simp] theorem afterTick_tick (s : State) : (afterTick s).tick = s.tick := by simp [afterTick]
@[simp] theorem afterTick_now (s : State) : (afterTick s).now = s.now := by simp [afterTick]

/-! ### Runs -/

theorem run_succ {n : Nat} {s t : State} (h : step s = .next t) :
    Host.Core.run Sys2Proof.core (n + 1) s = Host.Core.run Sys2Proof.core n t := by
  have h' : Sys2Proof.core.step s = .next t := h
  simp only [Host.Core.run, h']

/-- The environment after one step is the environment one tick on. -/
theorem envAfter_step {s t : State} (h : step s = .next t) (k : Nat) :
    (t.envAfter k).input = (s.envAfter (k + 1)).input := by
  have key : t.stim = stimRest s.stim ∧ t.tick = s.tick + 1 := by
    obtain ⟨-, ⟨-, rfl⟩ | ⟨-, -, rfl⟩ | ⟨-, rfl⟩⟩ := step_cases h <;> simp
  simp only [State.envAfter, State.input, stimAfter, key.1, key.2]
  rw [show s.tick + 1 + k = s.tick + (k + 1) by omega]

theorem envAfter_step_cfgIn {s t : State} (h : step s = .next t) (hc : t.cfg = s.cfg) (k : Nat) :
    (t.envAfter k).cfgIn = (s.envAfter (k + 1)).cfgIn := by
  have key : t.stim = stimRest s.stim := by
    obtain ⟨-, ⟨-, rfl⟩ | ⟨-, -, rfl⟩ | ⟨-, rfl⟩⟩ := step_cases h <;> simp
  simp only [State.envAfter, State.cfgIn, stimAfter, key, hc]

@[simp] theorem envAfter_zero (s : State) : s.envAfter 0 = s := rfl

end Sys2Proof.Machine
end

