-- ==== Sys2Proof/Laws/Registers.lean ====
section
/-! SUPPORT. The registers and the wires that a TOP_RUN tick leaves, each in closed form over `S_t`, the inputs and CFG
(44_top_control.md R255, R256). Statements about one tick cite these and unfold no unit. -/

namespace Sys2Proof.Machine

/-- `start_edge`, 44_top_control.md R255 step 4. -/
def seesEdge (s : State) : Bool :=
  if s.input.dataFault then false else startEdgeSeen s.cfg s.now.edgePrev s.input.dataIn

/-- `bs_val`, 44_top_control.md R255 step 1: 0 in a tick that samples nothing. -/
def sampled (s : State) : Bool :=
  if fires s = true ∧ s.now.bsKind = .sample then capture s.input.dataIn s.input.dataFault s.now.bsFb else false

/-- The SSR's operation is one of IDLE, without abort and without a strobe, or a wait. -/
def ssrQuiet (s : State) : Bool :=
  !s.input.abort && (if s.now.ssrPhase = phIdle then !strobes s else !fires s)

/-! ### Wires -/

theorem tick_bsFire (s : State) : (afterTick s).sig.bsFire = fires s := by
  have h : ∀ x, (afterSd x).sig = x.sig := by intro x; unfold afterSd; split_ifs <;> rfl
  simp only [afterTick, h, afterHand_sig_bsFire, afterAfr_sig_bsFire, afterEdge_sig_bsFire, afterSsr_sig_bsFire]
  rfl

theorem tick_bsVal (s : State) : (afterTick s).sig.bsVal = sampled s := by
  have h : ∀ x, (afterSd x).sig = x.sig := by intro x; unfold afterSd; split_ifs <;> rfl
  simp only [afterTick, h, afterHand_sig_bsVal, afterAfr_sig_bsVal, afterEdge_sig_bsVal, afterSsr_sig_bsVal]
  rfl

theorem tick_pollStrobe (s : State) : (afterTick s).sig.pollStrobe = strobes s := by
  have h : ∀ x, (afterSd x).sig = x.sig := by intro x; unfold afterSd; split_ifs <;> rfl
  simp only [afterTick, h, afterHand_sig_pollStrobe, afterAfr_sig_pollStrobe, afterEdge_sig_pollStrobe,
    afterSsr_sig_pollStrobe]
  rfl

theorem tick_startEdge (s : State) : (afterTick s).sig.startEdge = seesEdge s := by
  have h : ∀ x, (afterSd x).sig = x.sig := by intro x; unfold afterSd; split_ifs <;> rfl
  simp only [afterTick, h, afterHand_sig_startEdge, afterAfr_sig_startEdge, afterEdge, afterSsr_input, afterPoll_input,
    afterBs_input, afterSsr_now, afterPoll_now, afterBs_now, beginTick_now, afterSsr_cfg, afterPoll_cfg, afterBs_cfg,
    beginTick_cfg]
  rfl

/-! ### What a unit reads of the tick is what `s` holds -/

/-- The state in front of a unit: the same `S_t`, inputs and CFG. -/
theorem take_congr {x s : State} (h : x.now = s.now) : take x = take s := by simp only [take, h]

theorem chgHit_congr {x s : State} (h : x.now = s.now) (hc : x.cfg = s.cfg) : chgHit x = chgHit s := by
  simp only [chgHit, h, hc]

theorem lastEntry_congr {x s : State} (h : x.now = s.now) (hc : x.cfg = s.cfg) : lastEntry x = lastEntry s := by
  simp only [lastEntry, h, hc]

theorem currentReport_congr {x s : State} (h : x.now = s.now) (hc : x.cfg = s.cfg) :
    currentReport x = currentReport s := by
  simp only [currentReport, h, hc]

/-- The state in front of HAND and of SD. -/
def beforeHand (s : State) : State := afterAfr (afterEdge (afterSsr (afterPoll (afterBs (beginTick s)))))

theorem afterTick_eq (s : State) : afterTick s = afterSd (afterHand (beforeHand s)) := rfl

@[simp] theorem beforeHand_now (s : State) : (beforeHand s).now = s.now := by simp [beforeHand]
@[simp] theorem beforeHand_cfg (s : State) : (beforeHand s).cfg = s.cfg := by simp [beforeHand]
@[simp] theorem beforeHand_input (s : State) : (beforeHand s).input = s.input := by simp [beforeHand]
@[simp] theorem beforeHand_tick (s : State) : (beforeHand s).tick = s.tick := by simp [beforeHand]
@[simp] theorem beforeHand_trace (s : State) : (beforeHand s).trace = s.trace := by simp [beforeHand]

@[simp] theorem beforeHand_handFull (s : State) : (beforeHand s).nxt.handFull = s.now.handFull := by simp [beforeHand]
@[simp] theorem beforeHand_handWord (s : State) : (beforeHand s).nxt.handWord = s.now.handWord := by simp [beforeHand]
@[simp] theorem beforeHand_sdState (s : State) : (beforeHand s).nxt.sdState = s.now.sdState := by simp [beforeHand]
@[simp] theorem beforeHand_sdCur (s : State) : (beforeHand s).nxt.sdCur = s.now.sdCur := by simp [beforeHand]
@[simp] theorem beforeHand_sdChg (s : State) : (beforeHand s).nxt.sdChg = s.now.sdChg := by simp [beforeHand]
@[simp] theorem beforeHand_sdPos (s : State) : (beforeHand s).nxt.sdPos = s.now.sdPos := by simp [beforeHand]
@[simp] theorem beforeHand_prevWord (s : State) : (beforeHand s).nxt.prevWord = s.now.prevWord := by simp [beforeHand]
@[simp] theorem beforeHand_overrun (s : State) : (beforeHand s).nxt.overrun = s.now.overrun := by simp [beforeHand]

theorem sd_cases (s : State) :
    s.now.sdState = sdsIdle ∨ (s.now.sdState ≠ sdsIdle ∧ s.now.sdState = sdsEmit) ∨
      (s.now.sdState ≠ sdsIdle ∧ s.now.sdState ≠ sdsEmit) := by
  by_cases hi : s.now.sdState = sdsIdle
  · exact .inl hi
  · by_cases he : s.now.sdState = sdsEmit
    · exact .inr (.inl ⟨hi, he⟩)
    · exact .inr (.inr ⟨hi, he⟩)

/-! ### The StateDiffer and the sink trace -/

theorem tick_sdState (s : State) :
    (afterTick s).nxt.sdState =
      if s.now.sdState = sdsIdle then
        (if s.now.handFull then (if 0 < s.cfg.len then sdsEmit else sdsSync) else sdsIdle)
      else if s.now.sdState = sdsEmit then
        (if (chgHit s = false ∨ s.input.sinkReady = true) ∧ lastEntry s = true then sdsSync else sdsEmit)
      else if s.input.sinkReady then sdsIdle else s.now.sdState := by
  rw [afterTick_eq]
  unfold afterSd
  rw [chgHit_congr (s := s) (by simp) (by simp)]
  cases hr : s.input.sinkReady <;> cases hc : chgHit s <;> cases hl : lastEntry s <;> cases hf : s.now.handFull <;>
    rcases sd_cases s with he | ⟨hi, he⟩ | ⟨hi, he⟩ <;>
    simp [*, sdAdvance, transfer, lastEntry_congr (s := s)]

theorem tick_sdPos (s : State) :
    (afterTick s).nxt.sdPos =
      if s.now.sdState = sdsIdle then (if s.now.handFull then 0#5 else s.now.sdPos)
      else if s.now.sdState = sdsEmit ∧ (chgHit s = false ∨ s.input.sinkReady = true) then s.now.sdPos + 1#5
      else s.now.sdPos := by
  rw [afterTick_eq]
  unfold afterSd
  rw [chgHit_congr (s := s) (by simp) (by simp)]
  cases hr : s.input.sinkReady <;> cases hc : chgHit s <;> cases hf : s.now.handFull <;>
    rcases sd_cases s with he | ⟨hi, he⟩ | ⟨hi, he⟩ <;>
    simp [*, sdAdvance, transfer]

theorem tick_sdCur (s : State) :
    (afterTick s).nxt.sdCur =
      if s.now.sdState = sdsIdle ∧ s.now.handFull = true then s.now.handWord else s.now.sdCur := by
  rw [afterTick_eq]
  unfold afterSd
  rw [chgHit_congr (s := s) (by simp) (by simp)]
  cases hr : s.input.sinkReady <;> cases hc : chgHit s <;> cases hf : s.now.handFull <;>
    rcases sd_cases s with he | ⟨hi, he⟩ | ⟨hi, he⟩ <;>
    simp [*, sdAdvance, transfer]

theorem tick_sdChg (s : State) :
    (afterTick s).nxt.sdChg =
      if s.now.sdState = sdsIdle ∧ s.now.handFull = true then s.now.prevWord ^^^ s.now.handWord else s.now.sdChg := by
  rw [afterTick_eq]
  unfold afterSd
  rw [chgHit_congr (s := s) (by simp) (by simp)]
  cases hr : s.input.sinkReady <;> cases hc : chgHit s <;> cases hf : s.now.handFull <;>
    rcases sd_cases s with he | ⟨hi, he⟩ | ⟨hi, he⟩ <;>
    simp [*, sdAdvance, transfer]

theorem tick_prevWord (s : State) :
    (afterTick s).nxt.prevWord =
      if s.now.sdState ≠ sdsIdle ∧ s.now.sdState ≠ sdsEmit ∧ s.input.sinkReady = true then s.now.sdCur
      else s.now.prevWord := by
  rw [afterTick_eq]
  unfold afterSd
  rw [chgHit_congr (s := s) (by simp) (by simp)]
  cases hr : s.input.sinkReady <;> cases hc : chgHit s <;> cases hf : s.now.handFull <;>
    rcases sd_cases s with he | ⟨hi, he⟩ | ⟨hi, he⟩ <;>
    simp [*, sdAdvance, transfer]

theorem tick_trace (s : State) :
    (afterTick s).trace =
      if s.now.sdState = sdsIdle ∨ s.input.sinkReady = false then s.trace
      else if s.now.sdState = sdsEmit then
        (if chgHit s then s.trace ++ [(s.tick, (currentReport s).word)] else s.trace)
      else s.trace ++ [(s.tick, Event.sync.word)] := by
  rw [afterTick_eq]
  unfold afterSd
  rw [chgHit_congr (s := s) (by simp) (by simp)]
  cases hr : s.input.sinkReady <;> cases hc : chgHit s <;> cases hf : s.now.handFull <;>
    rcases sd_cases s with he | ⟨hi, he⟩ | ⟨hi, he⟩ <;>
    simp [*, sdAdvance, transfer, currentReport_congr (s := s)]

/-! ### The handoff -/

theorem tick_handFull (s : State) :
    (afterTick s).nxt.handFull =
      if (beforeHand s).sig.write then true else if take s then false else s.now.handFull := by
  have h : ∀ x, (afterSd x).nxt.handFull = x.nxt.handFull := by intro x; unfold afterSd; split_ifs <;> rfl
  rw [afterTick_eq, h]
  unfold afterHand
  rw [take_congr (s := s) (by simp)]
  cases hw : (beforeHand s).sig.write <;> cases ht : take s <;> cases hf : s.now.handFull <;>
    simp [setOverrun, hf]

theorem tick_handWord (s : State) :
    (afterTick s).nxt.handWord =
      if (beforeHand s).sig.write = true ∧ (s.now.handFull = false ∨ take s = true) then (beforeHand s).sig.hwWord
      else s.now.handWord := by
  have h : ∀ x, (afterSd x).nxt.handWord = x.nxt.handWord := by intro x; unfold afterSd; split_ifs <;> rfl
  rw [afterTick_eq, h]
  unfold afterHand
  rw [take_congr (s := s) (by simp)]
  cases hw : (beforeHand s).sig.write <;> cases ht : take s <;> cases hf : s.now.handFull <;>
    simp [setOverrun, hf]

theorem tick_overrun (s : State) :
    (afterTick s).nxt.overrun =
      (s.now.overrun || ((beforeHand s).sig.write && s.now.handFull && !take s)) := by
  have h : ∀ x, (afterSd x).nxt.overrun = x.nxt.overrun := by intro x; unfold afterSd; split_ifs <;> rfl
  rw [afterTick_eq, h]
  unfold afterHand
  rw [take_congr (s := s) (by simp)]
  cases hw : (beforeHand s).sig.write <;> cases ht : take s <;> cases hf : s.now.handFull <;>
    simp [setOverrun, hf]

/-! ### POLL and EDGE -/

theorem tick_pollCnt (s : State) :
    (afterTick s).nxt.pollCnt =
      if s.cfg.mode = .async ∨ s.now.pollCnt = s.cfg.pollPeriod - 1#32 then 0#32 else s.now.pollCnt + 1#32 := by

  unfold afterTick; simp only [afterSd_pollCnt, afterHand_pollCnt, afterAfr_pollCnt, afterEdge_pollCnt, afterSsr_pollCnt]; rfl

theorem tick_edgePrev (s : State) :
    (afterTick s).nxt.edgePrev = if s.input.dataFault then s.now.edgePrev else s.input.dataIn := by

  simp [afterTick, afterEdge]

/-! ### The readers and the BitSampler, by mode

In SYNC mode WF keeps the AFR in IDLE and no start edge is seen; in ASYNC mode it keeps the SSR in IDLE and no strobe
comes. -/

theorem sync_noEdge {s : State} (hm : s.cfg.mode = .sync) : seesEdge s = false := by
  unfold seesEdge startEdgeSeen; rw [hm]; simp

theorem async_noStrobe {s : State} (hm : s.cfg.mode = .async) : strobes s = false := by
  simp [strobes, hm]

/-- The registers of the SyncShiftReader and of the BitSampler that works for it. -/
structure SsrView where
  phase : BitVec 4
  bit   : BitVec 5
  acc   : ButtonWord
  busy  : Bool
  kind  : ReqKind
  rem   : BitVec 16
  fb    : Bool
deriving DecidableEq, Repr

def ssrView (r : Regs) : SsrView := ⟨r.ssrPhase, r.ssrBit, r.ssrAcc, r.bsBusy, r.bsKind, r.bsRem, r.bsFb⟩

/-- The registers of the AsyncFrameReader and of the BitSampler that works for it. -/
structure AfrView where
  sampling : Bool
  bit      : BitVec 5
  acc      : ButtonWord
  sync     : Bool
  busy     : Bool
  kind     : ReqKind
  rem      : BitVec 16
  fb       : Bool
deriving DecidableEq, Repr

def afrView (r : Regs) : AfrView :=
  ⟨r.afrSampling, r.afrBit, r.afrAcc, r.syncOut, r.bsBusy, r.bsKind, r.bsRem, r.bsFb⟩

/-- What the SSR's tick leaves (41_sync_reader.md R155 to R162 over 40_bit_sampler.md R135 to R139). -/
def ssrNext (s : State) : SsrView :=
  if s.input.abort then { ssrView s.now with phase := phIdle, bit := 0#5, acc := 0#16, busy := false }
  else if s.now.ssrPhase = phIdle then
    if strobes s then ⟨phLatch, 0#5, 0#16, true, .delay, tLh s.plat, false⟩ else ssrView s.now
  else if s.now.bsRem ≠ 1#16 then { ssrView s.now with rem := s.now.bsRem - 1#16 }
  else if s.now.ssrPhase = phLatch then ⟨phSettle, s.now.ssrBit, s.now.ssrAcc, true, .sample, tLs s.plat, true⟩
  else if s.now.ssrPhase = phClkHigh then
    if s.now.ssrBit.toNat = s.cfg.w then ⟨phClkTail, s.now.ssrBit, s.now.ssrAcc, true, .delay, tCl s.plat, false⟩
    else ⟨phClkLow, s.now.ssrBit, s.now.ssrAcc, true, .sample, tCl s.plat, true⟩
  else if s.now.ssrPhase = phClkTail then { ssrView s.now with phase := phIdle, bit := 0#5, acc := 0#16, busy := false }
  else
    ⟨phClkHigh, s.now.ssrBit + 1#5,
      orBit s.now.ssrAcc (!(capture s.input.dataIn s.input.dataFault true)) s.now.ssrBit.toNat, true, .delay,
      tCh s.plat, false⟩

/-- What the AFR's tick leaves (42_async_reader.md R184 to R190 over 40_bit_sampler.md R135 to R139). -/
def afrNext (s : State) : AfrView :=
  if s.input.abort then { afrView s.now with sampling := false, bit := 0#5, acc := 0#16, busy := false }
  else if s.now.afrSampling = false then
    if seesEdge s then { afrView s.now with
      sampling := true, bit := 0#5, acc := 0#16, busy := true, kind := .sample, rem := half s.cfg, fb := false }
    else afrView s.now
  else if s.now.bsRem ≠ 1#16 then { afrView s.now with rem := s.now.bsRem - 1#16 }
  else if s.now.afrBit.toNat = s.cfg.w - 1 then { afrView s.now with
    sampling := false, bit := 0#5, acc := 0#16, busy := false
    sync := if s.cfg.handshake then !s.now.syncOut else s.now.syncOut }
  else { afrView s.now with
    bit := s.now.afrBit + 1#5
    acc := orBit s.now.afrAcc (capture s.input.dataIn s.input.dataFault false) s.now.afrBit.toNat
    rem := s.cfg.bitPeriod }

/-- The state in front of AFR, and in front of SSR. -/
def beforeAfr (s : State) : State := afterEdge (afterSsr (afterPoll (afterBs (beginTick s))))

theorem beforeHand_eq (s : State) : beforeHand s = afterAfr (beforeAfr s) := rfl

@[simp] theorem beforeAfr_now (s : State) : (beforeAfr s).now = s.now := by simp [beforeAfr]
@[simp] theorem beforeAfr_cfg (s : State) : (beforeAfr s).cfg = s.cfg := by simp [beforeAfr]
@[simp] theorem beforeAfr_input (s : State) : (beforeAfr s).input = s.input := by simp [beforeAfr]
@[simp] theorem beforeAfr_afrSampling (s : State) : (beforeAfr s).nxt.afrSampling = s.now.afrSampling := by
  simp [beforeAfr]
@[simp] theorem beforeAfr_afrBit (s : State) : (beforeAfr s).nxt.afrBit = s.now.afrBit := by simp [beforeAfr]
@[simp] theorem beforeAfr_afrAcc (s : State) : (beforeAfr s).nxt.afrAcc = s.now.afrAcc := by simp [beforeAfr]
@[simp] theorem beforeAfr_syncOut (s : State) : (beforeAfr s).nxt.syncOut = s.now.syncOut := by simp [beforeAfr]

theorem beforeAfr_bsFire (s : State) : (beforeAfr s).sig.bsFire = fires s := by simp [beforeAfr]; rfl

theorem beforeAfr_bsVal (s : State) : (beforeAfr s).sig.bsVal = sampled s := by simp [beforeAfr]; rfl

theorem beforeAfr_startEdge (s : State) : (beforeAfr s).sig.startEdge = seesEdge s := by
  rw [← tick_startEdge]
  have h : ∀ x, (afterSd x).sig = x.sig := by intro x; unfold afterSd; split_ifs <;> rfl
  rw [afterTick_eq, h, afterHand_sig_startEdge, beforeHand_eq, afterAfr_sig_startEdge]

/-- A reader's registers after the tick are those in front of HAND. -/
theorem tick_ssrView (s : State) : ssrView (afterTick s).nxt = ssrView (beforeHand s).nxt := by
  simp [afterTick_eq, ssrView]

theorem tick_afrView (s : State) : afrView (afterTick s).nxt = afrView (beforeHand s).nxt := by
  simp [afterTick_eq, afrView]

/-- In SYNC mode the AFR's operation leaves what is in front of it, and its own registers at rest. -/
theorem sync_afr {s : State} (hm : s.cfg.mode = .sync) (hw : WF s.cfg s.now) :
    afterAfr (beforeAfr s) = beforeAfr s := by
  have hs : s.now.afrSampling = false := (hw.mode.1 hm).1
  have hi := hw.idle.2 hs
  unfold afterAfr
  simp only [beforeAfr_now, beforeAfr_input, beforeAfr_startEdge, sync_noEdge hm, hs]
  split_ifs
  · have h1 := beforeAfr_afrSampling s
    have h2 := beforeAfr_afrBit s
    have h3 := beforeAfr_afrAcc s
    rw [hs] at h1; rw [hi.1] at h2; rw [hi.2] at h3
    unfold afrClear
    rw [← h1, ← h2, ← h3]
  all_goals simp_all

/-- The state in front of SSR. -/
def beforeSsr (s : State) : State := afterPoll (afterBs (beginTick s))

theorem beforeAfr_eq (s : State) : beforeAfr s = afterEdge (afterSsr (beforeSsr s)) := rfl

@[simp] theorem beforeSsr_now (s : State) : (beforeSsr s).now = s.now := rfl
@[simp] theorem beforeSsr_cfg (s : State) : (beforeSsr s).cfg = s.cfg := rfl
@[simp] theorem beforeSsr_plat (s : State) : (beforeSsr s).plat = s.plat := rfl
@[simp] theorem beforeSsr_input (s : State) : (beforeSsr s).input = s.input := rfl
@[simp] theorem beforeSsr_bsFire (s : State) : (beforeSsr s).sig.bsFire = fires s := rfl
@[simp] theorem beforeSsr_bsVal (s : State) : (beforeSsr s).sig.bsVal = sampled s := rfl
@[simp] theorem beforeSsr_pollStrobe (s : State) : (beforeSsr s).sig.pollStrobe = strobes s := rfl
theorem beforeSsr_write (s : State) : (beforeSsr s).sig.write = false := rfl

/-- What the BitSampler's own operation leaves, before a reader's request. -/
theorem beforeSsr_view (s : State) :
    ssrView (beforeSsr s).nxt =
      { ssrView s.now with
        busy := if s.now.bsBusy && (s.input.abort || s.now.bsRem == 1#16) then false else s.now.bsBusy
        rem := if s.now.bsBusy && !s.input.abort && !(s.now.bsRem == 1#16) then s.now.bsRem - 1#16 else s.now.bsRem } :=
  rfl

theorem ssrView_edge (s : State) : ssrView (afterEdge s).nxt = ssrView s.nxt := rfl

/-- What SSR's operation makes of the registers it finds. -/
theorem afterSsr_view (x : State) :
    ssrView (afterSsr x).nxt =
      if x.input.abort then { ssrView x.nxt with phase := phIdle, bit := 0#5, acc := 0#16 }
      else if x.now.ssrPhase = phIdle then
        if x.sig.pollStrobe then ⟨phLatch, 0#5, 0#16, true, .delay, tLh x.plat, false⟩ else ssrView x.nxt
      else if x.sig.bsFire = false then ssrView x.nxt
      else if x.now.ssrPhase = phLatch then
        ⟨phSettle, x.nxt.ssrBit, x.nxt.ssrAcc, true, .sample, tLs x.plat, true⟩
      else if x.now.ssrPhase = phClkHigh then
        if x.now.ssrBit.toNat = x.cfg.w then ⟨phClkTail, x.nxt.ssrBit, x.nxt.ssrAcc, true, .delay, tCl x.plat, false⟩
        else ⟨phClkLow, x.nxt.ssrBit, x.nxt.ssrAcc, true, .sample, tCl x.plat, true⟩
      else if x.now.ssrPhase = phClkTail then { ssrView x.nxt with phase := phIdle, bit := 0#5, acc := 0#16 }
      else
        ⟨phClkHigh, x.now.ssrBit + 1#5, orBit x.now.ssrAcc (!x.sig.bsVal) x.now.ssrBit.toNat, true, .delay,
          tCh x.plat, false⟩ := by
  unfold afterSsr
  split_ifs <;> rfl

/-- What AFR's operation makes of the registers it finds. -/
theorem afterAfr_view (x : State) :
    afrView (afterAfr x).nxt =
      if x.input.abort then { afrView x.nxt with sampling := false, bit := 0#5, acc := 0#16 }
      else if x.now.afrSampling = false then
        if x.sig.startEdge then ⟨true, 0#5, 0#16, x.nxt.syncOut, true, .sample, half x.cfg, false⟩ else afrView x.nxt
      else if x.sig.bsFire = false then afrView x.nxt
      else if x.now.afrBit.toNat = x.cfg.w - 1 then { afrView x.nxt with
        sampling := false, bit := 0#5, acc := 0#16
        sync := if x.cfg.handshake then !x.now.syncOut else x.nxt.syncOut }
      else
        ⟨x.nxt.afrSampling, x.now.afrBit + 1#5, orBit x.now.afrAcc x.sig.bsVal x.now.afrBit.toNat, x.nxt.syncOut, true,
          .sample, x.cfg.bitPeriod, false⟩ := by
  unfold afterAfr
  split_ifs <;> rfl

/-- In SYNC mode a delay runs exactly while the SSR has left IDLE. -/
theorem sync_busy {s : State} (hm : s.cfg.mode = .sync) (hw : WF s.cfg s.now) :
    s.now.bsBusy = !(s.now.ssrPhase == phIdle) := by
  rw [hw.busy.1 hm]
  rcases hw.phase with h | h | h | h | h | h <;> rw [h] <;> rfl

theorem beforeSsr_ssrBit (s : State) : (beforeSsr s).nxt.ssrBit = s.now.ssrBit := rfl
theorem beforeSsr_ssrAcc (s : State) : (beforeSsr s).nxt.ssrAcc = s.now.ssrAcc := rfl

theorem sync_tick {s : State} (hm : s.cfg.mode = .sync) (hw : WF s.cfg s.now) :
    ssrView (afterTick s).nxt = ssrNext s := by
  have hb := sync_busy hm hw
  rw [tick_ssrView, beforeHand_eq, sync_afr hm hw, beforeAfr_eq, ssrView_edge, afterSsr_view, beforeSsr_view]
  unfold ssrNext
  simp only [beforeSsr_now, beforeSsr_cfg, beforeSsr_plat, beforeSsr_input, beforeSsr_bsFire, beforeSsr_bsVal,
    beforeSsr_pollStrobe, beforeSsr_ssrBit, beforeSsr_ssrAcc]
  unfold ssrView
  rcases Bool.eq_false_or_eq_true s.input.abort with ha | ha
  · rcases Bool.eq_false_or_eq_true s.now.bsBusy with hbb | hbb <;> simp [ha, hbb]
  · by_cases hi : s.now.ssrPhase = phIdle
    · rw [hi] at hb
      simp [ha, hi, hb]
    · have hbt : s.now.bsBusy = true := by rw [hb]; simpa using hi
      by_cases h1 : s.now.bsRem = 1#16
      · have hf : fires s = true := by simp [fires, hbt, ha, h1]
        rcases hw.phase with h | h | h | h | h | h
        · exact absurd h hi
        all_goals
          have hk := hw.request
          simp [ha, h, h1, hf, hbt, sampled]
        all_goals simp_all <;> rfl
      · have hf : fires s = false := by simp [fires, h1]
        simp [ha, hi, h1, hf, hbt]

/-! ### ASYNC mode -/

theorem afrView_edge (s : State) : afrView (afterEdge s).nxt = afrView s.nxt := rfl

theorem afterSsr_afrView {x : State} (hp : x.now.ssrPhase = phIdle) (hs : x.sig.pollStrobe = false) :
    afrView (afterSsr x).nxt = afrView x.nxt := by
  unfold afterSsr
  split_ifs <;> first | rfl | simp_all

/-- In ASYNC mode the SSR's operation leaves the registers of the AFR and of the BitSampler as it finds them. -/
theorem async_ssr {s : State} (hm : s.cfg.mode = .async) (hw : WF s.cfg s.now) :
    afrView (beforeAfr s).nxt =
      { afrView s.now with
        busy := if s.now.bsBusy && (s.input.abort || s.now.bsRem == 1#16) then false else s.now.bsBusy
        rem := if s.now.bsBusy && !s.input.abort && !(s.now.bsRem == 1#16) then s.now.bsRem - 1#16 else s.now.bsRem } := by
  rw [beforeAfr_eq, afrView_edge,
    afterSsr_afrView (x := beforeSsr s) (hw.mode.2 hm).1 (by rw [beforeSsr_pollStrobe, async_noStrobe hm])]
  rfl

theorem async_tick {s : State} (hm : s.cfg.mode = .async) (hw : WF s.cfg s.now) :
    afrView (afterTick s).nxt = afrNext s := by
  have hb := hw.busy.2 hm
  have hv := async_ssr hm hw
  have hk := hw.request.2.2
  rw [tick_afrView, beforeHand_eq, afterAfr_view, hv]
  unfold afrNext
  simp only [beforeAfr_now, beforeAfr_cfg, beforeAfr_input, beforeAfr_bsFire, beforeAfr_bsVal, beforeAfr_startEdge,
    beforeAfr_syncOut, beforeAfr_afrSampling]
  unfold afrView
  rcases Bool.eq_false_or_eq_true s.input.abort with ha | ha
  · rcases Bool.eq_false_or_eq_true s.now.bsBusy with hbb | hbb <;> simp [ha, hbb]
  · rcases Bool.eq_false_or_eq_true s.now.afrSampling with hi | hi
    · have hbt : s.now.bsBusy = true := by rw [hb, hi]
      by_cases h1 : s.now.bsRem = 1#16
      · have hf : fires s = true := by simp [fires, hbt, ha, h1]
        obtain ⟨hk1, hk2, -⟩ := hk hi
        simp [ha, hi, h1, hf, hbt, sampled, hk1, hk2]
      · have hf : fires s = false := by simp [fires, h1]
        simp [ha, hi, h1, hf, hbt]
    · have hbf : s.now.bsBusy = false := by rw [hb, hi]
      simp [ha, hi, hbf]

/-! ### The word a reader completes -/

theorem afterSsr_word (x : State) :
    ((afterSsr x).sig.write, (afterSsr x).sig.hwWord) =
      if x.input.abort = false ∧ x.sig.bsFire = true ∧ x.now.ssrPhase = phClkTail then (true, x.now.ssrAcc)
      else (x.sig.write, x.sig.hwWord) := by
  by_cases ht : x.now.ssrPhase = phClkTail
  · unfold afterSsr
    simp only [ht, show ¬ phClkTail = phIdle by decide, show ¬ phClkTail = phLatch by decide,
      show ¬ phClkTail = phClkHigh by decide, if_false, if_true, and_true]
    split_ifs <;> first | rfl | simp_all
  · rw [if_neg (by tauto)]
    unfold afterSsr
    split_ifs <;> rfl

theorem afterAfr_word (x : State) :
    ((afterAfr x).sig.write, (afterAfr x).sig.hwWord) =
      if x.input.abort = false ∧ x.now.afrSampling = true ∧ x.sig.bsFire = true ∧ x.now.afrBit.toNat = x.cfg.w - 1 then
        (true, orBit x.now.afrAcc x.sig.bsVal (x.cfg.w - 1))
      else (x.sig.write, x.sig.hwWord) := by
  unfold afterAfr
  split_ifs <;> first | rfl | simp_all

/-- The word on the wires in front of HAND is the word a reader completes in the tick. -/
theorem beforeHand_word {s : State} (hw : WF s.cfg s.now) :
    (if (beforeHand s).sig.write then some (beforeHand s).sig.hwWord else none) = completedWord s := by
  have hs := afterSsr_word (beforeSsr s)
  have ha := afterAfr_word (beforeAfr s)
  simp only [beforeSsr_now, beforeSsr_input, beforeSsr_bsFire] at hs
  simp only [beforeAfr_now, beforeAfr_cfg, beforeAfr_input, beforeAfr_bsFire, beforeAfr_bsVal] at ha
  have hq : ((beforeAfr s).sig.write, (beforeAfr s).sig.hwWord) =
      ((afterSsr (beforeSsr s)).sig.write, (afterSsr (beforeSsr s)).sig.hwWord) := rfl
  rw [hq, hs, ← beforeHand_eq] at ha
  have hz : (beforeSsr s).sig.write = false := rfl
  have hfire : fires s = true ↔ s.now.bsBusy = true ∧ s.now.bsRem = 1#16 ∧ s.input.abort = false := by
    simp [fires, and_assoc]
  unfold completedWord
  cases hm : s.cfg.mode with
  | sync =>
    have hn : s.now.afrSampling = false := (hw.mode.1 hm).1
    by_cases hc : s.now.bsBusy = true ∧ s.now.bsRem = 1#16 ∧ s.input.abort = false
    · by_cases ht : s.now.ssrPhase = phClkTail <;>
        simp_all
    · simp_all
  | async =>
    have hp : s.now.ssrPhase = phIdle := (hw.mode.2 hm).1
    have hk := hw.request.2.2
    by_cases hc : s.now.bsBusy = true ∧ s.now.bsRem = 1#16 ∧ s.input.abort = false
    · by_cases hsm : s.now.afrSampling = true
      · have hne : ¬ phIdle = phClkTail := by decide
        by_cases hl : s.now.afrBit.toNat = s.cfg.w - 1 <;> simp_all [sampled]
      · have hne : ¬ phIdle = phClkTail := by decide
        simp_all
    · simp_all

theorem word_cases {s : State} (hw : WF s.cfg s.now) :
    ((beforeHand s).sig.write = true ∧ completedWord s = some (beforeHand s).sig.hwWord) ∨
      ((beforeHand s).sig.write = false ∧ completedWord s = none) := by
  rw [← beforeHand_word hw]
  cases (beforeHand s).sig.write <;> simp

/-! ### The reader that the mode does not use, and the third state of the StateDiffer -/

theorem async_ssr_idle {s : State} (hm : s.cfg.mode = .async) (hw : WF s.cfg s.now) :
    (afterTick s).nxt.ssrPhase = phIdle ∧ (afterTick s).nxt.ssrBit = 0#5 ∧ (afterTick s).nxt.ssrAcc = 0#16 := by
  have hp := (hw.mode.2 hm).1
  have hi := hw.idle.1 hp
  have h : (afterTick s).nxt.ssrPhase = (afterSsr (beforeSsr s)).nxt.ssrPhase ∧ (afterTick s).nxt.ssrBit = (afterSsr (beforeSsr s)).nxt.ssrBit ∧ (afterTick s).nxt.ssrAcc = (afterSsr (beforeSsr s)).nxt.ssrAcc := by
    simp [afterTick_eq, beforeHand_eq, beforeAfr_eq]
  rw [h.1, h.2.1, h.2.2]
  unfold afterSsr
  simp only [beforeSsr_now, beforeSsr_input, beforeSsr_pollStrobe, async_noStrobe hm, hp]
  have : (beforeSsr s).nxt.ssrPhase = phIdle ∧ (beforeSsr s).nxt.ssrBit = 0#5 ∧ (beforeSsr s).nxt.ssrAcc = 0#16 := ⟨hp, hi.1, hi.2⟩
  split_ifs <;> first | exact this | exact ⟨rfl, rfl, rfl⟩ | simp_all

theorem sync_afr_idle {s : State} (hm : s.cfg.mode = .sync) (hw : WF s.cfg s.now) :
    (afterTick s).nxt.afrSampling = false ∧ (afterTick s).nxt.afrBit = 0#5 ∧ (afterTick s).nxt.afrAcc = 0#16 := by
  have hp := (hw.mode.1 hm).1
  have hi := hw.idle.2 hp
  have h : (afterTick s).nxt.afrSampling = (beforeHand s).nxt.afrSampling ∧ (afterTick s).nxt.afrBit = (beforeHand s).nxt.afrBit ∧ (afterTick s).nxt.afrAcc = (beforeHand s).nxt.afrAcc := by
    simp [afterTick_eq]
  rw [h.1, h.2.1, h.2.2, beforeHand_eq, sync_afr hm hw]
  simp [hp, hi]

theorem sd_sync {s : State} (hw : WF s.cfg s.now) (h1 : s.now.sdState ≠ sdsIdle) (h2 : s.now.sdState ≠ sdsEmit) :
    s.now.sdState = sdsSync := by
  have h3 := hw.sdState
  unfold WfSdState at h3
  clear hw
  revert h3 h1 h2
  generalize s.now.sdState = x
  revert x
  decide

end Sys2Proof.Machine
end

