-- ==== Sys2Proof/Laws/Run.lean ====
section
/-! SUPPORT. Runs: how a run is cut at its first or its last step, and how what is assumed of the environment for a number of
ticks passes to the rest of the run. -/

namespace Sys2Proof.Machine

theorem run_zero (s : State) : Host.Core.run Sys2Proof.core 0 s = .next s := rfl

/-- A run of `m + n` steps is a run of `m` steps and then one of `n`. -/
theorem run_add {m n : Nat} {s t : State} (h : Host.Core.run Sys2Proof.core m s = .next t) :
    Host.Core.run Sys2Proof.core (m + n) s = Host.Core.run Sys2Proof.core n t := by
  induction m generalizing s with
  | zero => cases h; rw [Nat.zero_add]
  | succ m ih =>
    rw [Nat.succ_add]
    simp only [Host.Core.run] at h ⊢
    cases hs : Sys2Proof.core.step s with
    | next u => rw [hs] at h; exact ih h
    | fault f => rw [hs] at h; cases h
    | refused r => rw [hs] at h; cases h

/-- The last step of a run. -/
theorem run_snoc {n : Nat} {s t u : State} (h : Host.Core.run Sys2Proof.core n s = .next t) (ht : step t = .next u) :
    Host.Core.run Sys2Proof.core (n + 1) s = .next u := by
  rw [run_add h, run_succ ht, run_zero]

theorem stimAfter_add (m n : Nat) (l : List StimRun) : stimAfter n (stimAfter m l) = stimAfter (m + n) l := by
  induction m generalizing l with
  | zero => simp [stimAfter]
  | succ m ih => rw [Nat.succ_add]; exact ih (stimRest l)

theorem envAfter_add (m n : Nat) (s : State) : (s.envAfter m).envAfter n = s.envAfter (m + n) := by
  simp only [State.envAfter, stimAfter_add, Nat.add_assoc]

/-- A tick that the owner does not disturb is a running tick. -/
theorem running_of {n : Nat} {s : State} (hp : s.plat.InRange) (hv : s.cfg.Valid s.plat) (hw : WF s.cfg s.now)
    (hu : s.Undisturbed (n + 1)) : s.Running := by
  have h := hu 0 (Nat.succ_pos n)
  rw [envAfter_zero] at h
  exact ⟨⟨hp, fun _ => h.2⟩, h.1, hv, hw⟩

theorem undisturbed_step {n : Nat} {s t : State} (hu : s.Undisturbed (n + 1)) (h : step s = .next t)
    (hc : t.cfg = s.cfg) : t.Undisturbed n := by
  intro k hk
  rw [envAfter_step h, envAfter_step_cfgIn h hc, hc]
  exact hu (k + 1) (Nat.succ_lt_succ hk)

theorem noAbort_step {n : Nat} {s t : State} (hu : s.NoAbort (n + 1)) (h : step s = .next t) : t.NoAbort n := by
  intro k hk
  rw [envAfter_step h]
  exact hu (k + 1) (Nat.succ_lt_succ hk)

theorem sinkReady_step {n : Nat} {s t : State} (hu : s.SinkReady (n + 1)) (h : step s = .next t) : t.SinkReady n := by
  intro k hk
  rw [envAfter_step h]
  exact hu (k + 1) (Nat.succ_lt_succ hk)

theorem undisturbed_mono {m n : Nat} (h : m ≤ n) {s : State} (hu : s.Undisturbed n) : s.Undisturbed m :=
  fun k hk => hu k (Nat.lt_of_lt_of_le hk h)

theorem noAbort_mono {m n : Nat} (h : m ≤ n) {s : State} (hu : s.NoAbort n) : s.NoAbort m :=
  fun k hk => hu k (Nat.lt_of_lt_of_le hk h)

end Sys2Proof.Machine
end

