-- ==== Sys2Proof/Laws/Expose.lean ====
section
/-! SUPPORT. What a tick and a run expose, by how the tick ends (44_top_control.md R252, R257). -/

namespace Sys2Proof.Machine

@[simp] theorem tickView_next {s t : State} (h : step s = .next t) :
    tickView s = some ⟨portLevels s, transferred s, t⟩ := by
  simp [tickView, h]

@[simp] theorem tickView_fault {s : State} {f : Fault} (h : step s = .fault f) : tickView s = none := by
  simp [tickView, h]

@[simp] theorem tickView_refused {s : State} {r : Refusal} (h : step s = .refused r) : tickView s = none := by
  simp [tickView, h]

/-- A tick has outputs exactly where it answers a next state, and then they are the port levels. -/
theorem outputs_eq_some_iff (s : State) (o : Outputs) :
    outputs s = some o ↔ (∃ t, step s = .next t) ∧ o = portLevels s := by
  cases h : step s <;> simp [outputs, tickView, h, eq_comm]

@[simp] theorem runView_zero (s : State) : runView 0 s = ⟨[], [], .next s⟩ := rfl

theorem runView_next {s t : State} (h : step s = .next t) (n : Nat) :
    runView (n + 1) s =
      ⟨portLevels s :: (runView n t).outputs,
        ((transferred s).map fun w => (s.tick, w)).toList ++ (runView n t).trace, (runView n t).final⟩ := by
  simp [runView, h]

theorem runView_fault {s : State} {f : Fault} (h : step s = .fault f) (n : Nat) :
    runView (n + 1) s = ⟨[], [], .fault f⟩ := by
  simp [runView, h]

theorem runView_refused {s : State} {r : Refusal} (h : step s = .refused r) (n : Nat) :
    runView (n + 1) s = ⟨[], [], .refused r⟩ := by
  simp [runView, h]

/-- The event of a tick as an entry of the sink trace (43_state_differ.md R221). -/
theorem transferred_entry (s : State) :
    ((transferred s).map fun w => (s.tick, w)).toList =
      if evValid s = true ∧ s.input.sinkReady = true then [(s.tick, evWord s)] else [] := by
  unfold transferred
  cases evValid s <;> cases s.input.sinkReady <;> rfl

end Sys2Proof.Machine
end

