-- ==== Sys2Proof/Laws/PerInstr.lean ====
section
/-! SUPPORT. A law of every operation as syntax: its encoding is the match value of a row of its own with every unread bit 0
(30_encoding.md R112), or an event word of its kind (30_encoding.md R104). -/

namespace Sys2Proof.Laws.OwnRow

/-- The encoding is that of the operation's own row, or of its own kind of event word. -/
def Statement (i : Instr) : Prop :=
  match encode i with
  | .osv v => ∃ r ∈ operationMap, r.instr = i ∧ v = r.pattern ∧ v &&& ~~~r.mask = 0#11
  | .ev w => evKind w = decide (i = .evSync)

theorem of_row (i : Instr) (v : Osv) (h : encode i = .osv v)
    (hr : operationMap.any (fun r => r.instr == i && v == r.pattern && v &&& ~~~r.mask == 0#11) = true) : Statement i := by
  unfold Statement
  rw [h]
  obtain ⟨r, hm, hp⟩ := List.any_eq_true.1 hr
  simp only [Bool.and_eq_true, beq_iff_eq] at hp
  exact ⟨r, hm, hp.1.1, hp.1.2, hp.2⟩

theorem reportWord_kind (p : Bool) (id : BitVec 16) : evKind (reportWord p id) = false := by
  unfold evKind reportWord
  simp only [BitVec.getLsbD_append]
  cases p <;> rfl

theorem topReset : Statement .topReset := of_row _ 0x001 rfl (by decide)
theorem topInert : Statement .topInert := of_row _ 0x000 rfl (by decide)
theorem topRun : Statement .topRun := of_row _ 0x002 rfl (by decide)
theorem bsIdle : Statement .bsIdle := of_row _ 0x100 rfl (by decide)
theorem bsCancel : Statement .bsCancel := of_row _ 0x112 rfl (by decide)
theorem bsCount : Statement .bsCount := of_row _ 0x110 rfl (by decide)
theorem bsFireDelay : Statement .bsFireDelay := of_row _ 0x111 rfl (by decide)
theorem bsFireSample : Statement .bsFireSample := of_row _ 0x131 rfl (by decide)
theorem pollOff : Statement .pollOff := of_row _ 0x202 rfl (by decide)
theorem pollCount : Statement .pollCount := of_row _ 0x200 rfl (by decide)
theorem pollStrobe : Statement .pollStrobe := of_row _ 0x201 rfl (by decide)
theorem ssrAbort : Statement .ssrAbort := of_row _ 0x302 rfl (by decide)
theorem ssrIdleHold : Statement .ssrIdleHold := of_row _ 0x300 rfl (by decide)
theorem ssrStart : Statement .ssrStart := of_row _ 0x304 rfl (by decide)
theorem ssrWait : Statement .ssrWait := of_row _ 0x380 rfl (by decide)
theorem ssrLatchEnd : Statement .ssrLatchEnd := of_row _ 0x381 rfl (by decide)
theorem ssrSample : Statement .ssrSample := of_row _ 0x391 rfl (by decide)
theorem ssrClkEnd : Statement .ssrClkEnd := of_row _ 0x3A1 rfl (by decide)
theorem ssrFinish : Statement .ssrFinish := of_row _ 0x3C1 rfl (by decide)
theorem edgeHold : Statement .edgeHold := of_row _ 0x401 rfl (by decide)
theorem edgeTrack : Statement .edgeTrack := of_row _ 0x400 rfl (by decide)
theorem afrAbort : Statement .afrAbort := of_row _ 0x502 rfl (by decide)
theorem afrIdleHold : Statement .afrIdleHold := of_row _ 0x500 rfl (by decide)
theorem afrStart : Statement .afrStart := of_row _ 0x504 rfl (by decide)
theorem afrWait : Statement .afrWait := of_row _ 0x580 rfl (by decide)
theorem afrEdgeIgnored : Statement .afrEdgeIgnored := of_row _ 0x584 rfl (by decide)
theorem afrSample : Statement .afrSample := of_row _ 0x581 rfl (by decide)
theorem afrFinish : Statement .afrFinish := of_row _ 0x589 rfl (by decide)
theorem handNop : Statement .handNop := of_row _ 0x600 rfl (by decide)
theorem handWrite : Statement .handWrite := of_row _ 0x601 rfl (by decide)
theorem handTake : Statement .handTake := of_row _ 0x612 rfl (by decide)
theorem handOverrun : Statement .handOverrun := of_row _ 0x611 rfl (by decide)
theorem handTakeWrite : Statement .handTakeWrite := of_row _ 0x613 rfl (by decide)
theorem sdIdleHold : Statement .sdIdleHold := of_row _ 0x700 rfl (by decide)
theorem sdTake : Statement .sdTake := of_row _ 0x701 rfl (by decide)
theorem sdSkip : Statement .sdSkip := of_row _ 0x710 rfl (by decide)
theorem sdReport : Statement .sdReport := of_row _ 0x716 rfl (by decide)
theorem sdReportWait : Statement .sdReportWait := of_row _ 0x712 rfl (by decide)
theorem sdSync : Statement .sdSync := of_row _ 0x724 rfl (by decide)
theorem sdSyncWait : Statement .sdSyncWait := of_row _ 0x720 rfl (by decide)
theorem evReport (pressed : Bool) (id : BitVec 16) : Statement (.evReport pressed id) := reportWord_kind pressed id
theorem evSync : Statement .evSync := rfl

end Sys2Proof.Laws.OwnRow
end

