-- ==== Sys2Proof/Tests/Slice0.lean ====
section
/-! SUPPORT. Tests: the checks on what an owner supplies, every row's word written out from 30_encoding.md, one tick of
95_test_vectors.md section 3 for the operations, and a witness for the hypotheses of every statement that has some. -/

namespace Sys2Proof.Tests

open Sys2Proof.Machine

set_option maxRecDepth 40000

/-! ### The checks: an ill-formed term for each (00_scope.md R6, 44_top_control.md R250) -/

def plat : Platform := ⟨100, 1⟩

/-- The map of `l`, padded with unused entries. -/
def mapOf (l : List (Nat × Nat)) : Vector MapEntry 16 :=
  Vector.ofFn fun i => match l[i.val]? with
    | some (x, d) => ⟨BitVec.ofNat 4 x, BitVec.ofNat 16 d, 0⟩
    | none => ⟨0, 0, 0⟩

/-- `MAP[k] = (k, k)` for the first eleven entries. -/
def kk : Vector MapEntry 16 := mapOf ((List.range 11).map fun k => (k, k))

/-- SYNC W=11 P=200 L=0, the record of most vectors. -/
def cs : Cfg := ⟨.sync, 11, 0, mapOf [], 200, 0, .falling, false, 0, 0⟩

/-- SYNC W=11 P=200 with the map `kk`. -/
def csk : Cfg := { cs with mapLen := 11, map := kk }

/-- ASYNC W=16 B=8 FALL HS=1 L=0. -/
def ca : Cfg := ⟨.async, 16, 0, mapOf [], 0, 8, .falling, true, 0, 0⟩

theorem test_wf_accepts : failedChecks plat cs = [] ∧ failedChecks plat csk = [] ∧ failedChecks plat ca = [] := by decide
theorem test_wf_ticksPerMs : failedChecks ⟨0, 1⟩ cs = [.ticksPerMs] := by decide
theorem test_wf_tu : failedChecks ⟨100, 0⟩ cs = [.tu] ∧ failedChecks ⟨100, 5462⟩ cs = [.tu] ∧
    failedChecks ⟨100, 5461⟩ cs = [] := by decide
theorem test_wf_width : failedChecks plat { cs with width := 12 } = [.width] := by decide
theorem test_wf_mapLen : failedChecks plat { cs with mapLen := 17, map := mapOf ((List.range 11).map fun k => (k, k)) } =
    [.mapLen, .mapDistinct] := by decide
theorem test_wf_mapInWidth : failedChecks plat { cs with mapLen := 1, map := mapOf [(11, 1)] } = [.mapInWidth] := by decide
theorem test_wf_mapDistinct :
    failedChecks plat { cs with mapLen := 2, map := mapOf [(2, 1), (2, 2)] } = [.mapDistinct] := by decide
theorem test_wf_pollPeriod : failedChecks plat { cs with pollPeriod := 99 } = [.pollPeriod] := by decide
theorem test_wf_bitPeriod : failedChecks plat { ca with bitPeriod := 1 } = [.bitPeriod] := by decide
theorem test_wf_reserved : failedChecks plat { cs with rsvd0 := 1 } = [.reserved] := by decide
theorem test_wf_stimRun : StimRun.wellFormed ⟨5, 0, none⟩ = false ∧ StimRun.wellFormed ⟨5, 1, none⟩ = true := by decide

/-! ### Decoding: a word of every row, unit_state_condition, with its unread bits set where it has some -/

theorem test_decode_topReset : decode (.osv 0b000_1111_1111#11) = .ok .topReset := by decide
theorem test_decode_topInert : decode (.osv 0b000_1111_1100#11) = .ok .topInert := by decide
theorem test_decode_topRun : decode (.osv 0b000_1111_1110#11) = .ok .topRun := by decide
theorem test_decode_bsIdle : decode (.osv 0b001_1110_1111#11) = .ok .bsIdle := by decide
theorem test_decode_bsCancel : decode (.osv 0b001_1111_1111#11) = .ok .bsCancel := by decide
theorem test_decode_bsCount : decode (.osv 0b001_1111_1100#11) = .ok .bsCount := by decide
theorem test_decode_bsFireDelay : decode (.osv 0b001_1101_1101#11) = .ok .bsFireDelay := by decide
theorem test_decode_bsFireSample : decode (.osv 0b001_1111_1101#11) = .ok .bsFireSample := by decide
theorem test_decode_pollOff : decode (.osv 0b010_1111_1111#11) = .ok .pollOff := by decide
theorem test_decode_pollCount : decode (.osv 0b010_1111_1100#11) = .ok .pollCount := by decide
theorem test_decode_pollStrobe : decode (.osv 0b010_1111_1101#11) = .ok .pollStrobe := by decide
theorem test_decode_ssrAbort : decode (.osv 0b011_1111_1111#11) = .ok .ssrAbort := by decide
theorem test_decode_ssrIdleHold : decode (.osv 0b011_0000_1001#11) = .ok .ssrIdleHold := by decide
theorem test_decode_ssrStart : decode (.osv 0b011_0000_1101#11) = .ok .ssrStart := by decide
theorem test_decode_ssrWait : decode (.osv 0b011_1111_1100#11) = .ok .ssrWait := by decide
theorem test_decode_ssrLatchEnd : decode (.osv 0b011_1000_1101#11) = .ok .ssrLatchEnd := by decide
theorem test_decode_ssrSample : decode (.osv 0b011_1011_1101#11) = .ok .ssrSample := by decide
theorem test_decode_ssrClkEnd : decode (.osv 0b011_1010_1101#11) = .ok .ssrClkEnd := by decide
theorem test_decode_ssrFinish : decode (.osv 0b011_1100_1101#11) = .ok .ssrFinish := by decide
theorem test_decode_edgeHold : decode (.osv 0b100_1111_1111#11) = .ok .edgeHold := by decide
theorem test_decode_edgeTrack : decode (.osv 0b100_1111_1110#11) = .ok .edgeTrack := by decide
theorem test_decode_afrAbort : decode (.osv 0b101_1111_1111#11) = .ok .afrAbort := by decide
theorem test_decode_afrIdleHold : decode (.osv 0b101_0000_1001#11) = .ok .afrIdleHold := by decide
theorem test_decode_afrStart : decode (.osv 0b101_0000_1101#11) = .ok .afrStart := by decide
theorem test_decode_afrWait : decode (.osv 0b101_1000_1000#11) = .ok .afrWait := by decide
theorem test_decode_afrEdgeIgnored : decode (.osv 0b101_1000_1100#11) = .ok .afrEdgeIgnored := by decide
theorem test_decode_afrSample : decode (.osv 0b101_1000_0101#11) = .ok .afrSample := by decide
theorem test_decode_afrFinish : decode (.osv 0b101_1000_1101#11) = .ok .afrFinish := by decide
theorem test_decode_handNop : decode (.osv 0b110_1111_1100#11) = .ok .handNop := by decide
theorem test_decode_handWrite : decode (.osv 0b110_1110_1101#11) = .ok .handWrite := by decide
theorem test_decode_handTake : decode (.osv 0b110_1111_1110#11) = .ok .handTake := by decide
theorem test_decode_handOverrun : decode (.osv 0b110_1111_1101#11) = .ok .handOverrun := by decide
theorem test_decode_handTakeWrite : decode (.osv 0b110_1111_1111#11) = .ok .handTakeWrite := by decide
theorem test_decode_sdIdleHold : decode (.osv 0b111_0000_1110#11) = .ok .sdIdleHold := by decide
theorem test_decode_sdTake : decode (.osv 0b111_0000_1111#11) = .ok .sdTake := by decide
theorem test_decode_sdSkip : decode (.osv 0b111_0001_1101#11) = .ok .sdSkip := by decide
theorem test_decode_sdReport : decode (.osv 0b111_0001_1111#11) = .ok .sdReport := by decide
theorem test_decode_sdReportWait : decode (.osv 0b111_0001_1011#11) = .ok .sdReportWait := by decide
theorem test_decode_sdSync : decode (.osv 0b111_0010_1111#11) = .ok .sdSync := by decide
theorem test_decode_sdSyncWait : decode (.osv 0b111_0010_1011#11) = .ok .sdSyncWait := by decide
theorem test_decode_evReport :
    decode (.ev 0b0_1_0000_0000_0001_0000#18) = .ok (.evReport true 0x0010) ∧
      decode (.ev 0b0_0_1111_1111_1111_1111#18) = .ok (.evReport false 0xFFFF) := by decide
theorem test_decode_evSync : decode (.ev 0b1_0_0000_0000_0000_0000#18) = .ok .evSync := by decide
theorem test_decode_rejects :
    decode (.osv 0b110_0000_0010#11) = .error (.noRow 0x602) ∧ decode (.osv 0b111_0011_0000#11) = .error (.noRow 0x730) ∧
      decode (.ev 0b1_1_0000_0000_0000_0000#18) = .error (.reservedEvent 0x30000) := by decide
theorem test_decodeTableWord :
    decodeTableWord 16 0x3B1 = some .ssrSample ∧ decodeTableWord 24 0x1FFFF = some (.evReport true 0xFFFF) ∧
      decodeTableWord 16 0x602 = none ∧ decodeTableWord 16 0x800 = none := by decide

/-! ### One tick (95_test_vectors.md section 3) -/

/-- A machine with the registers `f` makes of the reset record, and the inputs of one tick. -/
def given (tu : Nat) (c : Cfg) (f : Regs → Regs) (i : Inputs) : State :=
  { State.resetWith ⟨100, tu⟩ c with now := f (Regs.reset c), nxt := f (Regs.reset c), stim := [⟨i.toIv, 1, none⟩] }

/-- Whether a tick ends in a next state with the registers `g` makes of those before and with these transfers. -/
def leaves (s : State) (g : Regs → Regs) (ws : List EventWord) : Bool :=
  match step s with
  | .next t => t.now == g s.now && traceWords t == ws
  | _ => false

/-- The default inputs, and those of the vectors. -/
def dflt : Inputs := Inputs.dflt
def low : Inputs := { dflt with dataIn := false }
def aborted : Inputs := { dflt with abort := true }
def stalled : Inputs := { dflt with sinkReady := false }
def faulted : Inputs := { low with dataFault := true }

/-- The BitSampler running: kind, ticks left, fallback. -/
def delay (k : ReqKind) (n : Nat) (fb : Bool) (r : Regs) : Regs :=
  { r with bsBusy := true, bsKind := k, bsRem := BitVec.ofNat 16 n, bsFb := fb }

theorem test_V1_idle_tick :
    leaves (given 1 cs (fun r => { r with pollCnt := 5 }) dflt)
      (fun r => { r with pollCnt := 6 }) [] = true := by decide
theorem test_V2_bsCancel_ssrAbort :
    leaves (given 1 cs
        (fun r => { (delay .delay 1 false r) with ssrPhase := phClkHigh, ssrBit := 3, ssrAcc := 5 }) aborted)
      (fun r => { r with bsBusy := false, pollCnt := 1, ssrPhase := phIdle, ssrBit := 0, ssrAcc := 0 }) [] = true := by decide
theorem test_V3_bsCount_ssrWait :
    leaves (given 1 cs (fun r => { (delay .delay 5 false r) with ssrPhase := phLatch }) dflt)
      (fun r => { r with bsRem := 4, pollCnt := 1 }) [] = true := by decide
theorem test_V4_ssrLatchEnd :
    leaves (given 1 cs (fun r => { (delay .delay 1 false r) with ssrPhase := phLatch }) dflt)
      (fun r => { r with bsKind := .sample, bsRem := 6, bsFb := true, pollCnt := 1, ssrPhase := phSettle }) [] = true := by decide
theorem test_V5_ssrSample :
    leaves (given 1 cs (fun r => { (delay .sample 1 true r) with ssrPhase := phSettle }) low)
      (fun r => { r with bsKind := .delay, bsRem := 6, bsFb := false, pollCnt := 1, ssrPhase := phClkHigh, ssrBit := 1, ssrAcc := 1, edgePrev := false }) [] = true := by decide
theorem test_V6_ssrSample_fault :
    leaves (given 1 cs (fun r => { (delay .sample 1 true r) with ssrPhase := phSettle }) faulted)
      (fun r => { r with bsKind := .delay, bsRem := 6, bsFb := false, pollCnt := 1, ssrPhase := phClkHigh, ssrBit := 1 }) [] = true := by decide
theorem test_V9_pollStrobe_ssrStart :
    leaves (given 1 cs (fun r => { r with pollCnt := 0xc7 }) dflt)
      (fun r => { r with bsBusy := true, bsRem := 0xc, pollCnt := 0, ssrPhase := phLatch }) [] = true := by decide
theorem test_V11_pollOff_afrIdle :
    leaves (given 1 ca (fun r => r) dflt)
      (fun r => r) [] = true := by decide
theorem test_V16_ssrClkEnd_tail :
    leaves (given 1 cs
        (fun r => { (delay .delay 1 false r) with ssrPhase := phClkHigh, ssrBit := 0xb, ssrAcc := 0x7ed }) dflt)
      (fun r => { r with bsRem := 6, pollCnt := 1, ssrPhase := phClkTail }) [] = true := by decide
theorem test_V17_ssrClkEnd_low :
    leaves (given 1 cs
        (fun r => { (delay .delay 1 false r) with ssrPhase := phClkHigh, ssrBit := 4, ssrAcc := 5 }) dflt)
      (fun r => { r with bsKind := .sample, bsRem := 6, bsFb := true, pollCnt := 1, ssrPhase := phClkLow }) [] = true := by decide
theorem test_V18_ssrFinish_handWrite :
    leaves (given 1 cs
        (fun r => { (delay .delay 1 false r) with ssrPhase := phClkTail, ssrBit := 0xb, ssrAcc := 0x7ed }) dflt)
      (fun r => { r with bsBusy := false, pollCnt := 1, ssrPhase := phIdle, ssrBit := 0, ssrAcc := 0, handFull := true, handWord := 0x7ed }) [] = true := by decide
theorem test_V19_handOverrun :
    leaves (given 1 csk
        (fun r => { (delay .delay 1 false r) with ssrPhase := phClkTail, ssrBit := 0xb, ssrAcc := 0x7ed, handFull := true, handWord := 0x11, sdState := sdsEmit, sdPos := 3 }) dflt)
      (fun r => { r with bsBusy := false, pollCnt := 1, ssrPhase := phIdle, ssrBit := 0, ssrAcc := 0, sdPos := 4, overrun := true }) [] = true := by decide
theorem test_V22_edgeTrack_afrStart :
    leaves (given 1 ca (fun r => r) low)
      (fun r => { r with bsBusy := true, bsKind := .sample, bsRem := 4, edgePrev := false, afrSampling := true }) [] = true := by decide
theorem test_V25_edgeHold :
    leaves (given 1 ca (fun r => r) faulted)
      (fun r => r) [] = true := by decide
theorem test_V29_afrSample :
    leaves (given 1 ca
        (fun r => { (delay .sample 1 false r) with afrSampling := true, afrBit := 2, afrAcc := 0 }) { dflt with dataIn := true })
      (fun r => { r with bsRem := 8, afrBit := 3, afrAcc := 4 }) [] = true := by decide
theorem test_V30_afrFinish :
    leaves (given 1 ca
        (fun r => { (delay .sample 1 false r) with afrSampling := true, afrBit := 0xf, afrAcc := 0x1234 }) low)
      (fun r => { r with bsBusy := false, edgePrev := false, afrSampling := false, afrBit := 0, afrAcc := 0, syncOut := true, handFull := true, handWord := 0x1234 }) [] = true := by decide
theorem test_V33_afrEdgeIgnored :
    leaves (given 1 ca
        (fun r => { (delay .sample 4 false r) with afrSampling := true, afrBit := 3, afrAcc := 5, edgePrev := true }) low)
      (fun r => { r with bsRem := 3, edgePrev := false }) [] = true := by decide
theorem test_V35_afrAbort :
    leaves (given 1 ca
        (fun r => { (delay .sample 3 false r) with afrSampling := true, afrBit := 5, afrAcc := 0x14, syncOut := true }) aborted)
      (fun r => { r with bsBusy := false, afrSampling := false, afrBit := 0, afrAcc := 0 }) [] = true := by decide
theorem test_V38_handTake_sdTake :
    leaves (given 1 csk (fun r => { r with handFull := true, handWord := 0x7ed }) dflt)
      (fun r => { r with pollCnt := 1, handFull := false, sdState := sdsEmit, sdCur := 0x7ed, sdChg := 0x7ed }) [] = true := by decide
theorem test_V39_handTakeWrite :
    leaves (given 1 csk
        (fun r => { (delay .delay 1 false r) with handFull := true, handWord := 0x11, prevWord := 0x11, sdPos := 0xb, ssrPhase := phClkTail, ssrBit := 0xb, ssrAcc := 0x12 }) dflt)
      (fun r => { r with bsBusy := false, pollCnt := 1, ssrPhase := phIdle, ssrBit := 0, ssrAcc := 0, handWord := 0x12, sdState := sdsEmit, sdCur := 0x11, sdPos := 0 }) [] = true := by decide
theorem test_V41_sdSkip_last :
    leaves (given 1 csk (fun r => { r with sdState := sdsEmit, sdCur := 1, sdChg := 1, sdPos := 0xa }) dflt)
      (fun r => { r with pollCnt := 1, sdState := sdsSync, sdPos := 0xb }) [] = true := by decide
theorem test_V42_sdReport_release :
    leaves (given 1 csk
        (fun r => { r with sdState := sdsEmit, sdCur := 0x12, sdChg := 3, sdPos := 0, prevWord := 0x11 }) dflt)
      (fun r => { r with pollCnt := 1, sdPos := 1 }) [0x00000] = true := by decide
theorem test_V44_sdReportWait :
    leaves (given 1 csk
        (fun r => { r with sdState := sdsEmit, sdCur := 0x12, sdChg := 3, sdPos := 1, prevWord := 0x11 }) stalled)
      (fun r => { r with pollCnt := 1 }) [] = true := by decide
theorem test_V45_sdSync :
    leaves (given 1 csk (fun r => { r with sdState := sdsSync, sdCur := 0x7ed, sdChg := 0x7ed, sdPos := 0xb }) dflt)
      (fun r => { r with pollCnt := 1, sdState := sdsIdle, prevWord := 0x7ed }) [0x20000] = true := by decide
theorem test_V46_sdSyncWait :
    leaves (given 1 csk
        (fun r => { r with sdState := sdsSync, sdCur := 0x7ed, sdChg := 0x7ed, sdPos := 0xb }) stalled)
      (fun r => { r with pollCnt := 1 }) [] = true := by decide
theorem test_V48_sdReport_mapOrder :
    leaves (given 1 ({ cs with mapLen := 2, map := mapOf [(4, 260), (0, 256)] })
        (fun r => { r with sdState := sdsEmit, sdCur := 0x11, sdChg := 0x11, sdPos := 0 }) dflt)
      (fun r => { r with pollCnt := 1, sdPos := 1 }) [0x10104] = true := by decide
theorem test_V49_topReset :
    leaves (given 1 csk
        (fun r => { r with sdState := sdsSync, sdCur := 0x7ed, sdPos := 0xb, prevWord := 0x12, ssrPhase := phClkHigh, ssrBit := 3, bsBusy := true, bsRem := 2, overrun := true, pollCnt := 0x28 }) { dflt with rst := true })
      (fun r => { r with bsBusy := false, bsRem := 0, pollCnt := 0, ssrPhase := phIdle, ssrBit := 0, sdState := sdsIdle, sdCur := 0, sdPos := 0, prevWord := 0, overrun := false }) [] = true := by decide
theorem test_V50_topInert :
    leaves (given 1 ({ cs with width := 12 }) (fun r => r) low)
      (fun r => r) [] = true := by decide
theorem test_V55_afrWait_bsCount :
    leaves (given 1 ca
        (fun r => { (delay .sample 4 false r) with afrSampling := true, afrBit := 3, afrAcc := 5, edgePrev := true }) dflt)
      (fun r => { r with bsRem := 3 }) [] = true := by decide

/-- Every unit's rows, one of each, through `withFetchWord`: the tick performs the operation. -/
theorem test_withFetchWord :
    [(0x000, Instr.topInert), (0x1FD, .bsFireSample), (0x2FD, .pollStrobe), (0x3AD, .ssrClkEnd), (0x4FF, .edgeHold),
      (0x58D, .afrFinish), (0x61F, .handTakeWrite), (0x71B, .sdReportWait)].all
      (fun x => (tickOps (State.reset.withFetchWord 16 x.1)).contains x.2) = true := by decide

/-! ### The difference function (95_test_vectors.md section 4) -/

theorem test_DV4 : (diff 0x011 0x012 { cs with mapLen := 3, map := mapOf [(1, 1), (0, 0), (4, 4)] }) =
    [.report 1 true, .report 0 false, .sync] := by decide
theorem test_DV6 : (diff 0x1000 0 { ca with mapLen := 11, map := mapOf ((List.range 11).map fun k => (k + 1, k)) }) =
    [.sync] := by decide

/-! ### Witnesses: states that meet the hypotheses of each statement -/

/-- Whether an outcome is a next state. -/
def completes : Result → Bool
  | .next _ => true
  | _ => false

theorem of_completes {r : Result} (h : completes r = true) : ∃ t, r = .next t := by
  cases r with
  | next t => exact ⟨t, rfl⟩
  | fault f => cases h
  | refused f => cases h

/-- A stimulus of one run holds its inputs and the record for as long as it lasts. -/
theorem stimAfter_hold (iv : BitVec 5) (m k : Nat) (h : k < m) : stimAfter k [⟨iv, m, none⟩] = [⟨iv, m - k, none⟩] := by
  induction k generalizing m with
  | zero => rfl
  | succ k ih =>
    have hr : stimRest [⟨iv, m, none⟩] = [⟨iv, m - 1, none⟩] := by
      rw [stimRest_cons, if_neg (by simp only; omega)]
    show stimAfter k (stimRest [⟨iv, m, none⟩]) = _
    rw [hr, ih (m - 1) (by omega)]
    congr 2
    omega

/-- DATA high, the sink ready, no abort, no reset, for `m` ticks. -/
theorem hold_quiet {s : State} {m : Nat} (h : s.stim = [⟨0x05, m, none⟩]) :
    s.Undisturbed m ∧ s.NoAbort m ∧ s.SinkReady m := by
  have hk : ∀ k < m, (s.envAfter k).stim = [⟨0x05, m - k, none⟩] := fun k hk => by
    rw [State.envAfter_stim, h, stimAfter_hold _ _ _ hk]
  have hi : ∀ k < m, (s.envAfter k).input = Inputs.ofIv 0x05 := fun k hk' => by
    unfold State.input
    rw [hk k hk']
  have hc : ∀ k < m, (s.envAfter k).cfgIn = s.cfg := fun k hk' => by
    unfold State.cfgIn
    rw [hk k hk']
    rfl
  exact ⟨fun k hk' => ⟨by rw [hi k hk']; rfl, hc k hk'⟩, fun k hk' => by rw [hi k hk']; rfl,
    fun k hk' => by rw [hi k hk']; rfl⟩

/-- The same machine with quiet inputs for `m` ticks. -/
def quietFor (m : Nat) (s : State) : State := { s with stim := [⟨0x05, m, none⟩] }

/-- A machine in the situation of an operation, with the wires of a fire, of a strobe and edge, or of an offered word. -/
def sit (i : Instr) : State := State.reset.selecting i
def firing (s : State) : State := { s with sig := { Signals.quiet with bsFire := true } }
def struck (s : State) : State := { s with sig := { Signals.quiet with pollStrobe := true, startEdge := true } }
def writing (s : State) : State := { s with sig := { Signals.quiet with write := true } }

/-- A SYNC machine one tick before a strobe, and an ASYNC machine in the tick of a start edge. -/
def strobing : State := given 1 cs (fun r => { r with pollCnt := 199 }) dflt
def edging : State := given 1 { ca with startEdge := .rising } (fun r => r) dflt

/-- A machine whose registers fail WF. -/
def broken : State := given 1 cs (fun r => { r with ssrPhase := 1 }) dflt

/-- A machine with an invalid record. -/
def inert : State := given 1 { cs with width := 12 } (fun r => r) dflt

/-- A machine in a frame's last tick, with the handoff empty, full and taken, or full and held. -/
def finishWith (full : Bool) (st : BitVec 2) : State :=
  given 1 csk (fun r => { (delay .delay 1 false r) with
    ssrPhase := phClkTail, ssrBit := 11, handFull := full, sdState := st }) dflt

/-- A machine whose owner presents another record without a reset. -/
def presenting : State := { State.reset with stim := [⟨0x05, 1, some csk⟩] }

theorem test_witness_DecodeAndEncodeAgree :
    Instr.wellFormed (.evReport true 0xFFFF) = true ∧ decode (.ev 0x1FFFF) = .ok (.evReport true 0xFFFF) ∧
      decode (.osv 0x705) = .ok .sdTake := by decide

theorem test_witness_EventWordFormat : evValid (sit .topRun) = false ∧ evValid (sit .sdSync) = true := by decide

theorem test_witness_ExactlyOneRowOfEachUnitMatches :
    (⟨.topReset, 0x001, 0x701⟩ ∈ operationMap ∧ (0x003 : Osv) &&& 0x701 = 0x001) ∧ WF State.reset.cfg State.reset.now ∧
      take (sit .sdTake) = true ∧ decode (.osv (osvOf .ssr broken)) = .error (.noRow 0x310) := by decide

theorem test_witness_ConfigImageLayout :
    packCfg csk = packCfg csk ∧ (packCfg { csk with rsvd0 := 1 }).cfg0.extractLsb' 13 19 ≠ 0#19 ∧
      (packCfg { csk with rsvd2 := 0x8000 }).cfg2.extractLsb' 16 16 ≠ 0#16 ∧
      ((packCfg { csk with map := ⟨#[⟨0, 0, 1⟩, ⟨0, 0, 0⟩, ⟨0, 0, 0⟩, ⟨0, 0, 0⟩, ⟨0, 0, 0⟩, ⟨0, 0, 0⟩, ⟨0, 0, 0⟩, ⟨0, 0, 0⟩,
        ⟨0, 0, 0⟩, ⟨0, 0, 0⟩, ⟨0, 0, 0⟩, ⟨0, 0, 0⟩, ⟨0, 0, 0⟩, ⟨0, 0, 0⟩, ⟨0, 0, 0⟩, ⟨0, 0, 0⟩], rfl⟩ }).mapw[0]).extractLsb'
        20 12 ≠ 0#12 := by decide

theorem test_witness_ResetRecordValues : State.reset.now = Regs.reset State.reset.cfg := by decide

theorem test_witness_StepRunsTheSelectedOperation :
    ((sit .topRun).Accepted ∧ decode (.osv (topOsv (sit .topRun))) = .ok .topRun ∧
      completes (exec .topRun (sit .topRun)) = true) ∧
    (broken.Accepted ∧ decode (.osv (topOsv broken)) = .ok .topRun ∧ completes (exec .topRun broken) = false) := by decide

theorem test_witness_StepRefusesBadParametersAndRecordChanges :
    ¬ (Platform.InRange ⟨0, 1⟩) ∧ ¬ (Platform.InRange ⟨1, 0⟩) ∧ ¬ (Platform.InRange ⟨1, 5462⟩) ∧
    (presenting.plat.InRange ∧ presenting.input.rst = false ∧ presenting.cfgIn ≠ presenting.cfg) ∧
    (inert.plat.InRange ∧ inert.input.rst = false ∧ inert.cfgIn = inert.cfg ∧ ¬ inert.cfg.Valid inert.plat) := by decide

theorem test_witness_ResetTickResetsEverything :
    let s := { State.reset with stim := [⟨0x15, 1, some csk⟩] }
    s.plat.InRange ∧ s.input.rst = true ∧ s.cfgIn = csk := by decide

theorem test_witness_InertTickStaysAtReset :
    inert.Accepted ∧ inert.input.rst = false ∧ ¬ inert.cfg.Valid inert.plat := by decide

theorem test_witness_TopRunPerformsEveryUnit : WF (sit .ssrFinish).cfg (sit .ssrFinish).now := by decide

theorem test_witness_IllFormedRecordFaults :
    ¬ WF broken.cfg broken.now ∧ broken.Accepted ∧ broken.input.rst = false ∧ broken.cfg.Valid broken.plat := by decide

theorem test_witness_WiresOfATickFollowTheirFormulas :
    (WF (sit .bsFireSample).cfg (sit .bsFireSample).now ∧ fires (sit .bsFireSample) = true ∧
      (sit .bsFireSample).now.bsKind = .sample) ∧
    (WF (sit .afrFinish).cfg (sit .afrFinish).now ∧ completedWord (sit .afrFinish) = some 0x8000) := by decide

theorem test_witness_NoOperationWritesWhatTheTickReads : ∃ t, exec .topRun (sit .ssrFinish) = .next t :=
  of_completes (by decide)

theorem test_witness_BitSamplerOperations :
    (sit .bsIdle).now.bsBusy = false ∧
    ((sit .bsCancel).now.bsBusy = true ∧ (sit .bsCancel).input.abort = true) ∧
    ((sit .bsCount).now.bsBusy = true ∧ (sit .bsCount).now.bsRem ≠ 1#16 ∧ (sit .bsCount).input.abort = false) ∧
    ((sit .bsFireDelay).now.bsBusy = true ∧ (sit .bsFireDelay).now.bsRem = 1#16 ∧ (sit .bsFireDelay).input.abort = false ∧
      (sit .bsFireDelay).now.bsKind = .delay) ∧
    ((sit .bsFireSample).now.bsBusy = true ∧ (sit .bsFireSample).now.bsRem = 1#16 ∧
      (sit .bsFireSample).input.abort = false ∧ (sit .bsFireSample).now.bsKind = .sample) := by decide

theorem test_witness_PollTimerOperations :
    (sit .pollOff).cfg.mode = .async ∧
    ((sit .pollCount).cfg.mode = .sync ∧ (sit .pollCount).now.pollCnt ≠ (sit .pollCount).cfg.pollPeriod - 1#32) ∧
    (strobing.cfg.mode = .sync ∧ strobing.now.pollCnt = strobing.cfg.pollPeriod - 1#32) := by decide

theorem test_witness_SyncReaderOperations :
    (sit .ssrAbort).input.abort = true ∧
    ((sit .ssrIdleHold).input.abort = false ∧ (sit .ssrIdleHold).now.ssrPhase = 0b0000#4 ∧
      (sit .ssrIdleHold).sig.pollStrobe = false) ∧
    ((struck strobing).input.abort = false ∧ (struck strobing).now.ssrPhase = 0b0000#4 ∧
      (struck strobing).sig.pollStrobe = true) ∧
    ((sit .ssrWait).input.abort = false ∧ (sit .ssrWait).now.ssrPhase.getLsbD 3 = true ∧ (sit .ssrWait).sig.bsFire = false) ∧
    ((firing (sit .ssrLatchEnd)).input.abort = false ∧ (firing (sit .ssrLatchEnd)).now.ssrPhase = 0b1000#4 ∧
      (firing (sit .ssrLatchEnd)).sig.bsFire = true) ∧
    ((firing (sit .ssrSample)).now.ssrPhase = 0b1001#4 ∧ (firing (sit .ssrSample)).input.abort = false) ∧
    ((firing (sit .ssrClkEnd)).now.ssrPhase = 0b1010#4 ∧
      (sit .ssrClkEnd).now.ssrBit.toNat ≠ (sit .ssrClkEnd).cfg.width.toNat) ∧
    ((firing (sit .ssrFinish)).now.ssrPhase = 0b1100#4 ∧
      (sit .ssrFinish).now.ssrBit.toNat = (sit .ssrFinish).cfg.width.toNat) := by decide

theorem test_witness_EdgeDetectorOperations :
    (sit .edgeHold).input.dataFault = true ∧ (sit .edgeTrack).input.dataFault = false := by decide

theorem test_witness_AsyncReaderOperations :
    (sit .afrAbort).input.abort = true ∧
    ((sit .afrIdleHold).input.abort = false ∧ (sit .afrIdleHold).now.afrSampling = false ∧
      (sit .afrIdleHold).sig.startEdge = false) ∧
    ((struck (sit .afrStart)).input.abort = false ∧ (struck (sit .afrStart)).now.afrSampling = false ∧
      (struck (sit .afrStart)).sig.startEdge = true) ∧
    ((sit .afrWait).input.abort = false ∧ (sit .afrWait).now.afrSampling = true ∧ (sit .afrWait).sig.bsFire = false ∧
      (sit .afrWait).sig.startEdge = false) ∧
    ((struck (sit .afrWait)).now.afrSampling = true ∧ (struck (sit .afrWait)).sig.bsFire = false) ∧
    ((firing (sit .afrSample)).input.abort = false ∧ (firing (sit .afrSample)).now.afrSampling = true ∧
      (sit .afrSample).now.afrBit.toNat ≠ (sit .afrSample).cfg.width.toNat - 1) ∧
    ((firing (sit .afrFinish)).input.abort = false ∧ (firing (sit .afrFinish)).now.afrSampling = true ∧
      (sit .afrFinish).now.afrBit.toNat = (sit .afrFinish).cfg.width.toNat - 1) := by decide

theorem test_witness_HandoffOperations :
    ((sit .handNop).sig.write = false ∧ take (sit .handNop) = false) ∧
    ((writing (sit .handWrite)).now.handFull = false ∧ take (writing (sit .handWrite)) = false) ∧
    ((sit .handTake).sig.write = false ∧ take (sit .handTake) = true) ∧
    ((writing (sit .handOverrun)).now.handFull = true ∧ take (writing (sit .handOverrun)) = false) ∧
    ((writing (sit .handTakeWrite)).sig.write = true ∧ take (writing (sit .handTakeWrite)) = true) := by decide

theorem test_witness_StateDifferOperations :
    ((sit .sdIdleHold).now.sdState = 0b00#2 ∧ (sit .sdIdleHold).now.handFull = false) ∧
    ((sit .sdTake).now.sdState = 0b00#2 ∧ (sit .sdTake).now.handFull = true) ∧
    ((sit .sdSkip).now.sdState = 0b01#2 ∧ chgHit (sit .sdSkip) = false) ∧
    ((sit .sdReport).now.sdState = 0b01#2 ∧ chgHit (sit .sdReport) = true ∧ (sit .sdReport).input.sinkReady = true) ∧
    ((sit .sdReportWait).now.sdState = 0b01#2 ∧ chgHit (sit .sdReportWait) = true ∧
      (sit .sdReportWait).input.sinkReady = false) ∧
    ((sit .sdSync).now.sdState = 0b10#2 ∧ (sit .sdSync).input.sinkReady = true) ∧
    ((sit .sdSyncWait).now.sdState = 0b10#2 ∧ (sit .sdSyncWait).input.sinkReady = false) := by decide

theorem test_witness_EventWordRowsTransfer :
    ((sit .evSync).input.rst = false ∧ (sit .evSync).cfg.Valid (sit .evSync).plat ∧ (sit .evSync).input.sinkReady = true) ∧
      ¬ (sit .sdSyncWait).input.sinkReady = true := by decide

theorem test_witness_DelayOperandsFit :
    (Platform.InRange ⟨1, 5461⟩ ∧ cs.Valid ⟨1, 5461⟩) ∧ (Platform.InRange ⟨1, 1⟩ ∧ Cfg.Valid ⟨1, 1⟩ { ca with bitPeriod := 2 } ∧
      Cfg.Valid ⟨1, 1⟩ { ca with bitPeriod := 65535 }) := by decide

theorem test_witness_StepKeepsWf :
    WF (sit .afrSample).cfg (sit .afrSample).now ∧ ∃ t, step (sit .afrSample) = .next t :=
  ⟨by decide, of_completes (by decide)⟩

theorem test_witness_StepKeepsTheLineInvariants :
    (∃ t, step (given 1 ca (fun r => { r with syncOut := true }) dflt) = .next t) ∧
      (given 1 ca (fun r => { r with syncOut := true }) dflt).SyncLineOk ∧
      (∃ t, step inert = .next t) ∧ inert.InertAtRest ∧ ¬ inert.cfg.Valid inert.plat :=
  ⟨of_completes (by decide), by decide, of_completes (by decide), by decide, by decide⟩

theorem test_witness_WellFormedTicksNeverFault :
    (sit .ssrSample).Accepted ∧ WF (sit .ssrSample).cfg (sit .ssrSample).now := by decide

theorem test_witness_UnreachableIsNeverRaisedFromReset :
    broken.Accepted ∧ broken.input.rst = false ∧ broken.cfg.Valid broken.plat ∧ ¬ WF broken.cfg broken.now := by decide

theorem test_witness_PinsFollowTheMode :
    (WF (sit .afrWait).cfg (sit .afrWait).now ∧ (sit .afrWait).SyncLineOk ∧ (sit .afrWait).cfg.mode = .async ∧
      (sit .afrWait).cfg.handshake = false) ∧
    (WF (sit .ssrWait).cfg (sit .ssrWait).now ∧ (sit .ssrWait).SyncLineOk ∧ (sit .ssrWait).cfg.mode = .sync) := by decide

/-- With the same tick without the abort. -/
theorem test_witness_AbortAbandonsTheFrame :
    (sit .bsCancel).Running ∧ (sit .bsCancel).input.abort = true ∧
      { sit .bsCancel with stim := [⟨0x05, 1, none⟩] }.Running ∧
      { sit .bsCancel with stim := [⟨0x05, 1, none⟩] }.input = { (sit .bsCancel).input with abort := false } := by decide

/-- A reset tick that presents a valid record is no longer in error, whatever record was held. -/
theorem test_status_reads_the_presented_record :
    (status { inert with stim := [⟨0x15, 1, some csk⟩] }).cfgErr = false ∧ (status inert).cfgErr = true := by decide

theorem test_witness_OutputsFollowTheRegisters :
    (∃ t, step (sit .sdSync) = .next t) ∧ step broken = .fault .unreachable ∧
      step presenting = .refused .cfgChangedWithoutReset :=
  ⟨of_completes (by decide), by rfl, by rfl⟩

theorem test_witness_LatchAndClockFollowThePhase : ∃ o, outputs (sit .ssrWait) = some o :=
  ⟨_, (outputs_eq_some_iff _ _).2 ⟨of_completes (by decide), rfl⟩⟩

theorem test_witness_RunYieldsWhatItsTicksExpose :
    (∃ t, Host.Core.run Sys2Proof.core 1 (sit .sdSync) = .next t) ∧
      Host.Core.run Sys2Proof.core 1 broken = .fault .unreachable :=
  ⟨of_completes (by decide), by rfl⟩

theorem test_witness_SamplesWriteABitThatWasZero :
    (WF (sit .ssrSample).cfg (sit .ssrSample).now ∧ (sit .ssrSample).Running ∧ (sit .ssrSample).AccumulatorsOk ∧
      (sit .ssrSample).input.abort = false ∧ (sit .ssrSample).now.bsRem = 1#16 ∧ (sit .ssrSample).now.ssrPhase = 0b1001#4) ∧
    ((sit .afrSample).Running ∧ (sit .afrSample).AccumulatorsOk ∧ (sit .afrSample).now.bsRem = 1#16 ∧
      (sit .afrSample).now.afrSampling = true ∧ (sit .afrSample).now.afrBit.toNat < (sit .afrSample).cfg.w - 1) ∧
    ((sit .afrFinish).Running ∧ (sit .afrFinish).AccumulatorsOk ∧ (sit .afrFinish).now.afrSampling = true ∧
      (sit .afrFinish).now.afrBit.toNat = (sit .afrFinish).cfg.w - 1) ∧
    (∃ t, step (sit .ssrSample) = .next t) ∧ (∃ t, step (sit .afrSample) = .next t) ∧ (∃ t, step (sit .afrFinish) = .next t) :=
  ⟨by decide, by decide, by decide, of_completes (by decide), of_completes (by decide), of_completes (by decide)⟩

theorem test_witness_OtherConditionsAreMetAsStated :
    ((sit .afrEdgeIgnored).Running ∧ Cause.reentrantFrame ∈ tickCauses (sit .afrEdgeIgnored)) ∧
    ((sit .bsCancel).Running ∧ Cause.abandon ∈ tickCauses (sit .bsCancel)) ∧ (sit .topReset).input.rst = true ∧
    (inert.Accepted ∧ inert.input.rst = false ∧ ¬ inert.cfg.Valid inert.plat) ∧
    (broken.Accepted ∧ broken.input.rst = false ∧ broken.cfg.Valid broken.plat ∧ ¬ WF broken.cfg broken.now) := by decide

/-- The trace syntax of 30_encoding.md R115: the end state of program P1 in 95_test_vectors.md section 5. -/
theorem test_stateLines :
    stateLines 363 { Regs.reset csk with
        bsRem := 1, pollCnt := 0xa3, handWord := 0x7ed, sdCur := 0x7ed, sdChg := 0x7ed, sdPos := 11, prevWord := 0x7ed } =
      ["S_363.bs_busy = 0", "S_363.bs_kind = 0", "S_363.bs_rem = 1", "S_363.bs_fb = 0", "S_363.poll_cnt = 0xa3",
       "S_363.ssr_phase = 0b0000", "S_363.ssr_bit = 0", "S_363.ssr_acc = 0", "S_363.edge_prev = 1",
       "S_363.afr_sampling = 0", "S_363.afr_bit = 0", "S_363.afr_acc = 0", "S_363.sync_out = 0", "S_363.hand_full = 0",
       "S_363.hand_word = 0x7ed", "S_363.sd_state = 0b00", "S_363.sd_cur = 0x7ed", "S_363.sd_chg = 0x7ed",
       "S_363.sd_pos = 0xb", "S_363.prev_word = 0x7ed", "S_363.overrun = 0"] := by decide

/-- The operations and the event of one tick, after the 21 fields of its state. -/
theorem test_tickLines :
    (tickLines (sit .sdSync)).drop 21 =
      ["0: TOP_RUN", "0: BS_IDLE", "0: POLL_COUNT", "0: SSR_IDLE_HOLD", "0: EDGE_TRACK", "0: AFR_IDLE_HOLD", "0: HAND_NOP",
       "0: SD_SYNC", "0: EV SYNC"] := by decide

theorem test_witness_HandoffTick :
    (∃ t, step (finishWith false sdsIdle) = .next t) ∧
    ((finishWith false sdsIdle).Running ∧ completedWord (finishWith false sdsIdle) = some 0) ∧
    ((finishWith true sdsIdle).Running ∧ completedWord (finishWith true sdsIdle) = some 0 ∧
      (finishWith true sdsIdle).now.handFull = true) ∧
    ((finishWith true sdsEmit).Running ∧ completedWord (finishWith true sdsEmit) = some 0 ∧
      (finishWith true sdsEmit).now.handFull = true ∧ (finishWith true sdsEmit).now.sdState ≠ 0b00#2) ∧
    ((sit .handTake).Running ∧ completedWord (sit .handTake) = none) :=
  ⟨of_completes (by decide), by decide, by decide, by decide, by decide⟩

theorem test_witness_PreviousWordIsWrittenOnlyBySync :
    (sit .sdSync).Running ∧ (sit .sdSync).now.sdState = 0b10#2 ∧ (sit .sdSync).input.sinkReady = true ∧
      ∃ t, step (sit .sdSync) = .next t := ⟨by decide, by decide, by decide, of_completes (by decide)⟩

theorem test_witness_HandshakeTogglesOncePerFrame :
    let s := given 1 ca (fun r => { (delay .sample 1 false r) with afrSampling := true, afrBit := 15 }) dflt
    s.Running ∧ s.cfg.handshake = true ∧ completedWord s = some 0x8000 ∧ ∃ t, step s = .next t :=
  ⟨by decide, by decide, by decide, of_completes (by decide)⟩

theorem test_witness_TraceGrowsByTheTransferredWord :
    (∃ t, step (sit .sdSync) = .next t) ∧ evValid (sit .sdSync) = true ∧ (sit .sdSync).input.sinkReady = true :=
  ⟨of_completes (by decide), by decide, by decide⟩

theorem test_witness_PresentedEventIsStable :
    (sit .sdReportWait).Running ∧ (pend (sit .sdReportWait)).isSome = true ∧ (sit .sdReportWait).input.sinkReady = false ∧
      ∃ t, step (sit .sdReportWait) = .next t := ⟨by decide, by decide, by decide, of_completes (by decide)⟩

theorem test_witness_OnlyLegalWordsAreTransferred :
    leaves (sit .sdReport) (fun r => { r with pollCnt := 1, sdPos := 1, sdState := sdsSync }) [0x10000] = true ∧
      (sit .sdReport).trace = [] := by decide

theorem test_witness_SyncSampleWritesItsBit :
    (sit .ssrSample).Running ∧ (sit .ssrSample).input.abort = false ∧ (sit .ssrSample).now.ssrPhase = 0b1001#4 ∧
      (sit .ssrSample).now.bsRem = 1#16 ∧ ∃ t, step (sit .ssrSample) = .next t :=
  ⟨by decide, by decide, by decide, by decide, of_completes (by decide)⟩

theorem test_witness_AsyncSampleWritesItsBit :
    ((sit .afrSample).Running ∧ (sit .afrSample).input.abort = false ∧ (sit .afrSample).now.afrSampling = true ∧
      (sit .afrSample).now.bsRem = 1#16 ∧ (sit .afrSample).now.afrBit.toNat < (sit .afrSample).cfg.w - 1) ∧
    ((sit .afrFinish).Running ∧ (sit .afrFinish).input.abort = false ∧ (sit .afrFinish).now.afrSampling = true ∧
      (sit .afrFinish).now.bsRem = 1#16 ∧ (sit .afrFinish).now.afrBit.toNat = (sit .afrFinish).cfg.w - 1) ∧
    (∃ t, step (sit .afrSample) = .next t) ∧ ∃ t, step (sit .afrFinish) = .next t :=
  ⟨by decide, by decide, of_completes (by decide), of_completes (by decide)⟩

theorem test_witness_FaultedLevelIsNeverUsed :
    faulted.dataFault = true ∧ { faulted with dataIn := true } = { faulted with dataIn := !faulted.dataIn } := by decide

/-- Two machines alike in the readers, one with a frame held at a stalled sink. -/
theorem test_witness_ReadersNeverWaitForTheSink :
    let s := given 1 csk (fun r => { r with pollCnt := 9 }) dflt
    let s' := given 1 csk (fun r => { r with pollCnt := 9, handFull := true, sdState := sdsEmit }) stalled
    s.Running ∧ s'.Running ∧ s.cfg = s'.cfg ∧ s.plat = s'.plat ∧ SameReaders s.now s'.now ∧
      { s.input with sinkReady := false } = { s'.input with sinkReady := false } ∧ (∃ t, step s = .next t) ∧
      ∃ t, step s' = .next t :=
  ⟨by decide, by decide, by decide, by decide, by decide, by decide, of_completes (by decide), of_completes (by decide)⟩

theorem test_witness_DataIsReadOnlyInItsCaptureTick :
    let s := sit .ssrWait
    faulted = { dflt with dataIn := faulted.dataIn, dataFault := faulted.dataFault } ∧ s.cfg.mode = .sync ∧
      s.cfg.Valid s.plat ∧ dflt.rst = false ∧
      ¬ ((s.now.ssrPhase = 0b1001#4 ∨ s.now.ssrPhase = 0b1011#4) ∧ s.now.bsRem = 1#16) ∧
      (∃ t, step { s with stim := ⟨dflt.toIv, 1, none⟩ :: [] } = .next t) ∧
      ∃ t, step { s with stim := ⟨faulted.toIv, 1, none⟩ :: [] } = .next t :=
  ⟨by decide, by decide, by decide, by decide, by decide, of_completes (by decide), of_completes (by decide)⟩

theorem test_witness_LineFaultAndOverrunAreMetAsStated : (finishWith true sdsEmit).Running := by decide

theorem test_witness_DelayCountsDownToItsFire :
    let s := quietFor 4 (sit .bsCount)
    s.plat.InRange ∧ s.cfg.Valid s.plat ∧ WF s.cfg s.now ∧ s.now.bsBusy = true ∧ 4 < s.now.bsRem.toNat ∧
      s.Undisturbed 4 ∧ s.NoAbort 4 :=
  ⟨by decide, by decide, by decide, by decide, by decide, (hold_quiet rfl).1, (hold_quiet rfl).2.1⟩

theorem test_witness_PollCounterCountsModuloThePeriod :
    let s := quietFor 500 strobing
    s.plat.InRange ∧ s.cfg.Valid s.plat ∧ WF s.cfg s.now ∧ s.cfg.mode = .sync ∧ s.Undisturbed 500 :=
  ⟨by decide, by decide, by decide, by decide, (hold_quiet rfl).1⟩

/-- The hypotheses of the synchronous frame statements, up to the tick after the frame (F = 150). -/
theorem test_witness_SyncFrameTimeline :
    let s := quietFor 151 strobing
    s.plat.InRange ∧ s.cfg.Valid s.plat ∧ WF s.cfg s.now ∧ s.cfg.mode = .sync ∧ s.now.ssrPhase = 0b0000#4 ∧
      s.now.pollCnt = s.cfg.pollPeriod - 1#32 ∧ 151 ≤ 18 * s.plat.tu + 12 * s.plat.tu * s.cfg.w + 1 ∧
      s.Undisturbed 151 ∧ s.NoAbort 151 :=
  ⟨by decide, by decide, by decide, by decide, by decide, by decide, by decide, (hold_quiet rfl).1, (hold_quiet rfl).2.1⟩

theorem test_witness_SyncWordIsTheSampledWire :
    let s := quietFor 151 strobing
    s.plat.InRange ∧ s.cfg.Valid s.plat ∧ WF s.cfg s.now ∧ s.cfg.mode = .sync ∧ s.now.ssrPhase = 0b0000#4 ∧
      s.now.pollCnt = s.cfg.pollPeriod - 1#32 ∧ 150 = 18 * s.plat.tu + 12 * s.plat.tu * s.cfg.w ∧
      s.Undisturbed (150 + 1) ∧ s.NoAbort (150 + 1) :=
  ⟨by decide, by decide, by decide, by decide, by decide, by decide, by decide,
    (hold_quiet rfl).1, (hold_quiet rfl).2.1⟩

/-- The hypotheses of the asynchronous frame statements, up to the tick after the frame (B = 8, W = 16: 124 ticks). -/
theorem test_witness_AsyncFrameTakesItsTime :
    let s := quietFor 125 edging
    124 = s.cfg.bitPeriod.toNat / 2 + (s.cfg.w - 1) * s.cfg.bitPeriod.toNat ∧ s.plat.InRange ∧ s.cfg.Valid s.plat ∧
      WF s.cfg s.now ∧ s.cfg.mode = .async ∧ s.now.afrSampling = false ∧ s.input.dataFault = false ∧
      s.now.edgePrev = decide (s.cfg.startEdge = .falling) ∧ s.input.dataIn = decide (s.cfg.startEdge = .rising) ∧
      s.Undisturbed 125 ∧ s.NoAbort 125 :=
  ⟨by decide, by decide, by decide, by decide, by decide, by decide, by decide, by decide, by decide, (hold_quiet rfl).1,
    (hold_quiet rfl).2.1⟩

theorem test_witness_AsyncWordIsTheSampledWire :
    let s := quietFor 125 edging
    8 = s.cfg.bitPeriod.toNat ∧ 124 = 8 / 2 + (s.cfg.w - 1) * 8 ∧ s.plat.InRange ∧ s.cfg.Valid s.plat ∧
      WF s.cfg s.now ∧ s.cfg.mode = .async ∧ s.now.afrSampling = false ∧ s.input.dataFault = false ∧
      s.now.edgePrev = decide (s.cfg.startEdge = .falling) ∧ s.input.dataIn = decide (s.cfg.startEdge = .rising) ∧
      s.Undisturbed (124 + 1) ∧ s.NoAbort (124 + 1) :=
  ⟨by decide, by decide, by decide, by decide, by decide, by decide, by decide, by decide, by decide, by decide,
    (hold_quiet rfl).1, (hold_quiet rfl).2.1⟩

theorem test_witness_EmissionIsConservedByATick :
    (sit .sdReport).Running ∧ (sit .sdReport).now.sdState ≠ 0b00#2 ∧ ∃ t, step (sit .sdReport) = .next t :=
  ⟨by decide, by decide, of_completes (by decide)⟩

/-- Whether a run answers a next state whose StateDiffer is IDLE, and whether one answers a state where it is not. -/
def idleAfter (n : Nat) (s : State) : Bool :=
  match Host.Core.run Sys2Proof.core n s with
  | .next t => t.now.sdState == sdsIdle
  | _ => false

/-- An empty map: taken in the first tick, the SYNC in the second. -/
theorem test_witness_EmissionEqualsTheDiff :
    let s := quietFor 2 (given 1 cs (fun r => { r with handFull := true, handWord := 0x7ed }) dflt)
    s.Running ∧ s.now.sdState = 0b00#2 ∧ s.now.handFull = true ∧ s.Undisturbed 2 ∧ idleAfter 2 s = true ∧
      idleAfter 1 s = false ∧ completes (Host.Core.run Sys2Proof.core 1 s) = true :=
  ⟨by decide, by decide, by decide, (hold_quiet rfl).1, by decide, by decide, by decide⟩

theorem test_witness_EmissionEndsWithAReadySink :
    let s := quietFor 13 (given 1 csk (fun r => { r with handFull := true, handWord := 0x7ed }) dflt)
    s.Running ∧ s.now.sdState = 0b00#2 ∧ s.now.handFull = true ∧ s.Undisturbed (s.cfg.len + 2) ∧
      s.SinkReady (s.cfg.len + 2) :=
  ⟨by decide, by decide, by decide, (hold_quiet rfl).1, (hold_quiet rfl).2.2⟩

theorem test_witness_ReadySinkMeansNoOverrun :
    let s := { State.resetWith plat csk with stim := [⟨0x05, 2, none⟩] }
    s.SinkReady 2 ∧ completes (Host.Core.run Sys2Proof.core 2 s) = true :=
  ⟨(hold_quiet rfl).2.2, by decide⟩

end Sys2Proof.Tests
end

section
/-! PROOFS. The port levels as functions of the phase and of the StateDiffer's state, and the values of the reset record. -/

namespace Sys2Proof.Machine

/-! ### The port levels, 10_state.md R34 and 43_state_differ.md R220 -/

/-- LATCH is high exactly in the phase LATCH (10_state.md R34). -/
theorem portLevels_latchOut (s : State) : (portLevels s).latchOut = decide (s.now.ssrPhase = phLatch) :=
  beq_eq_decide _ _

/-- CLOCK is high exactly in the phase CLK_HIGH (10_state.md R34). -/
theorem portLevels_clockOut (s : State) : (portLevels s).clockOut = decide (s.now.ssrPhase = phClkHigh) :=
  beq_eq_decide _ _

/-- An SSR at rest drives both of its pins low. -/
theorem ssrPins_low_of_phIdle {s : State} (h : s.now.ssrPhase = phIdle) :
    (portLevels s).latchOut = false ∧ (portLevels s).clockOut = false := by
  rw [portLevels_latchOut, portLevels_clockOut, h]
  exact ⟨decide_eq_false (by decide), decide_eq_false (by decide)⟩

/-- An SD in IDLE has no pending event (43_state_differ.md R218). -/
theorem pend_of_sdsIdle {s : State} (h : s.now.sdState = sdsIdle) : pend s = none := by
  have notEmit : s.now.sdState ≠ sdsEmit := by rw [h]; decide
  have notSync : s.now.sdState ≠ sdsSync := by rw [h]; decide
  simp only [pend, notEmit, notSync, false_and, if_false]

/-- Where no event is pending, the port presents none, open or not (43_state_differ.md R220). -/
theorem evValid_of_pend_none {s : State} (h : pend s = none) : evValid s = false := by
  simp only [evValid, h, Option.isSome_none, Bool.and_false]

/-! ### The reset record, 10_state.md R45 -/

/-- The idle level is high exactly for the falling start edge (10_state.md R35). -/
theorem idleLevel_eq_decide_falling (e : StartEdge) : idleLevel e = decide (e = .falling) := by
  cases e <;> rfl

/-- Every field of `S_rst` but `edge_prev` is 0 by definition; `edge_prev` is the idle level. -/
theorem reset_fields (c : Cfg) :
    Regs.reset c =
      { bsBusy := false, bsKind := .delay, bsRem := 0#16, bsFb := false, pollCnt := 0#32, ssrPhase := 0b0000#4,
        ssrBit := 0#5, ssrAcc := 0#16, edgePrev := decide (c.startEdge = .falling), afrSampling := false, afrBit := 0#5,
        afrAcc := 0#16, syncOut := false, handFull := false, handWord := 0#16, sdState := 0b00#2, sdCur := 0#16,
        sdChg := 0#16, sdPos := 0#5, prevWord := 0#16, overrun := false } := by
  rw [← idleLevel_eq_decide_falling]
  rfl

/-- A tick that starts in the reset record drives LATCH, CLOCK and SYNC low and presents no event: both the SSR and the SD
are in IDLE there. -/
theorem portLevels_low_of_now_reset {s : State} (h : s.now = Regs.reset s.cfg) :
    (portLevels s).latchOut = false ∧ (portLevels s).clockOut = false ∧ (portLevels s).syncOut = false ∧
      (portLevels s).evValid = false := by
  have phase : s.now.ssrPhase = phIdle := congrArg Regs.ssrPhase h
  have sync : s.now.syncOut = false := congrArg Regs.syncOut h
  have sd : s.now.sdState = sdsIdle := congrArg Regs.sdState h
  obtain ⟨latch, clock⟩ := ssrPins_low_of_phIdle phase
  exact ⟨latch, clock, sync, evValid_of_pend_none (pend_of_sdsIdle sd)⟩

/-- Settles O7: the record field by field, and the levels from the phase and the SD state it holds. -/
theorem resetRecordValues : Obligations.ResetRecordValues :=
  ⟨reset_fields, fun _ h => portLevels_low_of_now_reset h, State.resetWith_now⟩

/-- Settles O57: a tick's outputs, where it has any, are its port levels. -/
theorem latchAndClockFollowThePhase : Obligations.LatchAndClockFollowThePhase := by
  intro s o h
  obtain ⟨-, rfl⟩ := (outputs_eq_some_iff s o).1 h
  exact ⟨portLevels_latchOut s, portLevels_clockOut s⟩

end Sys2Proof.Machine
end

section
/-! PROOFS. The encodings of 30_encoding.md: the rows of the operation map R112 and what a vector matches (R103), the event
word (R104) and the input vector (R105). -/

namespace Sys2Proof.Machine

/-! ### The input vector, 30_encoding.md R105 -/

/-- `data_in` in bit 0, `data_fault`, `sink_ready`, `abort`, `rst` in bit 4, and no bit above. -/
theorem toIv_getLsbD (i : Inputs) (k : Nat) :
    i.toIv.getLsbD k = [i.dataIn, i.dataFault, i.sinkReady, i.abort, i.rst].getD k false := by
  simp only [Inputs.toIv, BitVec.getLsbD_append]
  match k with
  | 0 | 1 | 2 | 3 | 4 => simp
  | _ + 5 => simp

/-- Unpacking reads back the five inputs that were packed. -/
theorem ofIv_toIv (i : Inputs) : Inputs.ofIv i.toIv = i := by
  simp only [Inputs.ofIv, toIv_getLsbD, List.getD_cons_zero, List.getD_cons_succ]

/-- The vector has no bit besides the five inputs. -/
theorem toIv_ofIv (v : BitVec 5) : (Inputs.ofIv v).toIv = v := by
  apply BitVec.eq_of_getLsbD_eq
  intro k hk
  rw [toIv_getLsbD]
  match k, hk with
  | 0, _ | 1, _ | 2, _ | 3, _ | 4, _ => rfl

/-- Settles O6: each bit by `toIv_getLsbD`, and unpacking inverts packing on both sides. -/
theorem inputVectorPacks : Obligations.InputVectorPacks :=
  ⟨fun i => ⟨ofIv_toIv i, toIv_getLsbD i 0, toIv_getLsbD i 1, toIv_getLsbD i 2, toIv_getLsbD i 3, toIv_getLsbD i 4⟩,
    toIv_ofIv⟩

/-! ### The event word, 30_encoding.md R104 -/

/-- The word of an event has the kind bit only as the SYNC word. -/
theorem Event.word_eq_syncWord_of_kind {e : Event} (h : evKind e.word = true) : e.word = syncWord := by
  cases e with
  | report id pressed =>
    have kind : evKind (reportWord pressed id) = false := Laws.OwnRow.reportWord_kind pressed id
    exact absurd (kind.symm.trans h) Bool.false_ne_true
  | sync => rfl

/-- While `ev_valid` is 0 the port carries 0 (43_state_differ.md R220). -/
theorem evWord_of_not_evValid {s : State} (h : evValid s = false) : evWord s = 0#18 := by
  simp only [evWord, h, Bool.false_eq_true, if_false]

/-- The port carries 0 or the word of the pending event (43_state_differ.md R220). -/
theorem evWord_cases (s : State) : evWord s = 0#18 ∨ ∃ e, pend s = some e ∧ evWord s = e.word := by
  cases valid : evValid s with
  | false => exact .inl (evWord_of_not_evValid valid)
  | true =>
    cases pending : pend s with
    | none => exact absurd ((evValid_of_pend_none pending).symm.trans valid) Bool.false_ne_true
    | some e => exact .inr ⟨e, rfl, by simp only [evWord, valid, pending, if_true]⟩

/-- The port carries no reserved word: with the kind bit set it carries the SYNC word. -/
theorem evWord_eq_syncWord_of_kind {s : State} (h : evKind (evWord s) = true) : evWord s = syncWord := by
  rcases evWord_cases s with zero | ⟨e, -, word⟩
  · rw [zero] at h
    exact absurd h (by decide)
  · rw [word] at h ⊢
    exact Event.word_eq_syncWord_of_kind h

/-- Settles O4: the layout is the decoder's own equation, and the port carries 0 or the word of an event. -/
theorem eventWordFormat : Obligations.EventWordFormat :=
  ⟨fun _ => rfl, rfl, fun _ ⟨kind, notSync⟩ => notSync (evWord_eq_syncWord_of_kind kind),
    fun _ => evWord_of_not_evValid⟩

/-! ### The rows of the operation map, 30_encoding.md R103 and R112 -/

/-- A vector that matches two rows makes their patterns agree wherever both masks test it. -/
theorem patterns_agree_of_matches_both {v : Osv} {a b : Row} (ha : v &&& a.mask = a.pattern)
    (hb : v &&& b.mask = b.pattern) : a.pattern &&& b.mask = b.pattern &&& a.mask := by
  rw [← ha, ← hb, BitVec.and_assoc, BitVec.and_assoc, BitVec.and_comm a.mask]

/-- Any two rows of the operation map differ in a bit that both their masks test. -/
theorem operationMap_patterns_disagree :
    ∀ a ∈ operationMap, ∀ b ∈ operationMap, a.pattern &&& b.mask = b.pattern &&& a.mask → a = b := by
  decide

/-- No vector matches two rows. -/
theorem row_unique {v : Osv} {a b : Row} (ma : a ∈ operationMap) (mb : b ∈ operationMap)
    (ha : v &&& a.mask = a.pattern) (hb : v &&& b.mask = b.pattern) : a = b :=
  operationMap_patterns_disagree a ma b mb (patterns_agree_of_matches_both ha hb)

/-- What a vector decodes to is the operation of a row that it matches (30_encoding.md R100). -/
theorem row_of_decode_osv {v : Osv} {i : Instr} (h : decode (.osv v) = .ok i) :
    ∃ r ∈ operationMap, v &&& r.mask = r.pattern ∧ r.instr = i := by
  simp only [decode, decodeOsv] at h
  split at h
  next => cases h
  next r unique =>
    cases h
    obtain ⟨inMap, selected⟩ := List.mem_filter.1 (unique ▸ List.mem_singleton_self r)
    exact ⟨r, inMap, eq_of_beq selected, rfl⟩
  next => cases h

/-- Over a well-formed record the vector of each unit selects an operation, whatever the inputs and the wires. -/
theorem osvOf_decodes (s : State) (u : UnitName) (h : WF s.cfg s.now) : ∃ i, decode (.osv (osvOf u s)) = .ok i := by
  cases u with
  | top => exact ⟨_, decode_topOsv s⟩
  | bs => exact ⟨_, decode_bs _ _ _ _⟩
  | poll => exact ⟨_, decode_poll _ _⟩
  | ssr => exact ⟨_, decode_ssr _ _ _ _ _ h.phase⟩
  | edge => exact ⟨_, decode_edge _ _ _ _ _⟩
  | afr => exact ⟨_, decode_afr _ _ _ _ _⟩
  | hand => exact ⟨_, decode_hand _ _ _ (take_full s)⟩
  | sd => exact ⟨_, decode_sd _ _ _ _ _ h.sdState⟩

/-- Over a well-formed record the vector of each unit matches a row, and decodes to that row's operation. -/
theorem osvOf_matches_row (s : State) (u : UnitName) (h : WF s.cfg s.now) :
    ∃ r ∈ operationMap, osvOf u s &&& r.mask = r.pattern ∧ decode (.osv (osvOf u s)) = .ok r.instr := by
  obtain ⟨i, decoded⟩ := osvOf_decodes s u h
  obtain ⟨r, inMap, selected, rfl⟩ := row_of_decode_osv decoded
  exact ⟨r, inMap, selected, decoded⟩

/-- A unit whose vector selects no one row faults. TOP is none of the units that `runUnit` runs. -/
theorem runUnit_of_decode_error {s : State} {u : UnitName} {e : Reject} (hu : u ≠ .top)
    (h : decode (.osv (osvOf u s)) = .error e) : runUnit u s = .fault .unreachable := by
  cases u
  case top => exact absurd rfl hu
  all_goals
    simp only [osvOf] at h
    simp only [runUnit, runBs, runPoll, runSsr, runEdge, runAfr, runHand, runSd, h]

/-- Settles O2: uniqueness from the rows' patterns, existence from the decoding of each unit's vector. -/
theorem exactlyOneRowOfEachUnitMatches : Obligations.ExactlyOneRowOfEachUnitMatches :=
  ⟨fun _ _ _ => row_unique, osvOf_matches_row, take_full, fun _ _ _ => runUnit_of_decode_error⟩

end Sys2Proof.Machine
end

section
/-! PROOFS. The emission of a frame (43_state_differ.md R216, R229): what the StateDiffer still has to send as a function of
its map position, what one tick of it does, and the run from the take to the return to IDLE. -/

namespace Sys2Proof.Machine

/-! ### The events from a map position on, 43_state_differ.md R216, R217 -/

/-- The events of `diff(p, c, MAP, L)` that belong to the map positions from `k` on, and the SYNC. -/
def eventsFrom (p c : ButtonWord) (cfg : Cfg) (k : Nat) : List Event :=
  (cfg.activeMap.drop k).filterMap (reportOf p c) ++ [.sync]

theorem eventsFrom_zero (p c : ButtonWord) (cfg : Cfg) : eventsFrom p c cfg 0 = diff p c cfg := rfl

theorem eventsFrom_len (p c : ButtonWord) (cfg : Cfg) : eventsFrom p c cfg cfg.len = [.sync] := by
  have noEntry : cfg.activeMap.drop cfg.len = [] :=
    List.drop_eq_nil_of_le (List.length_take_le _ _)
  rw [eventsFrom, noEntry, List.filterMap_nil, List.nil_append]

/-- The length of a valid record's map, 44_top_control.md R250 condition 2. -/
theorem len_le_of_valid {p : Platform} {c : Cfg} (h : c.Valid p) : c.len ≤ 16 := by
  obtain ⟨-, mapLen, -⟩ := (valid_iff p c).1 h
  exact mapLen

/-- The active map from a used position on starts with that position's entry. -/
theorem activeMap_drop {c : Cfg} {k : Nat} (hk : k < c.len) (h16 : c.len ≤ 16) :
    c.activeMap.drop k = c.entry k :: c.activeMap.drop (k + 1) := by
  have inMap : k < c.map.toList.length := by rw [Vector.length_toList]; omega
  have inActive : k < c.activeMap.length := by rw [Cfg.activeMap, List.length_take]; omega
  have entry : c.activeMap[k] = c.entry k := by
    rw [Cfg.entry, List.getD_eq_getElem _ _ inMap]
    exact List.getElem_take
  rw [List.drop_eq_getElem_cons inActive, entry]

/-- A used position contributes the REPORT of its entry, if it has one. -/
theorem eventsFrom_succ (p c : ButtonWord) {cfg : Cfg} {k : Nat} (hk : k < cfg.len) (h16 : cfg.len ≤ 16) :
    eventsFrom p c cfg k = (reportOf p c (cfg.entry k)).toList ++ eventsFrom p c cfg (k + 1) := by
  rw [eventsFrom, activeMap_drop hk h16, List.filterMap_cons]
  cases reportOf p c (cfg.entry k) <;> rfl

/-! ### What is still to be sent -/

theorem remainingEvents_of_sdsIdle {s : State} (h : s.now.sdState = sdsIdle) : remainingEvents s = [] := by
  rw [remainingEvents, h]
  rfl

/-- A busy StateDiffer stands where its map position asks for: in EMIT below MAP_LEN and in SYNC at MAP_LEN
(43_state_differ.md R217). -/
structure State.AtPosition (s : State) : Prop where
  pos_le : s.now.sdPos.toNat ≤ s.cfg.len
  state_eq : s.now.sdState = if s.now.sdPos.toNat < s.cfg.len then sdsEmit else sdsSync

theorem State.AtPosition.not_idle {s : State} (h : s.AtPosition) : s.now.sdState ≠ sdsIdle := by
  rw [h.state_eq]
  split <;> decide

/-- In EMIT the map position is a used one (10_state.md R47, condition 9). -/
theorem sdPos_lt_len {c : Cfg} {r : Regs} (hw : WF c r) (emit : r.sdState = sdsEmit) : r.sdPos.toNat < c.len :=
  hw.sdPos.1 emit

/-- WF puts every busy StateDiffer at its position (10_state.md R47, conditions 2 and 9). -/
theorem atPosition_of_busy {s : State} (hw : WF s.cfg s.now) (busy : s.now.sdState ≠ sdsIdle) : s.AtPosition := by
  obtain ⟨-, -, syncPos⟩ := hw.sdPos
  by_cases emit : s.now.sdState = sdsEmit
  · have below := sdPos_lt_len hw emit
    exact ⟨below.le, by rw [if_pos below, emit]⟩
  · have sync := sd_sync hw busy emit
    have full := syncPos sync
    exact ⟨full.le, by rw [if_neg full.not_lt, sync]⟩

/-- What a busy StateDiffer still has to send is what its map position says, in EMIT and in SYNC alike. -/
theorem remainingEvents_of_atPosition {s : State} (h : s.AtPosition) :
    remainingEvents s = eventsFrom (s.now.sdCur ^^^ s.now.sdChg) s.now.sdCur s.cfg s.now.sdPos.toNat := by
  by_cases below : s.now.sdPos.toNat < s.cfg.len
  · rw [remainingEvents, h.state_eq, if_pos below]
    rfl
  · have full : s.now.sdPos.toNat = s.cfg.len := Nat.le_antisymm h.pos_le (Nat.le_of_not_lt below)
    rw [remainingEvents, h.state_eq, if_neg below, full, eventsFrom_len]
    rfl

/-- In EMIT the map entry visited gives the REPORT on the port exactly when its button changed (43_state_differ.md R218). -/
theorem reportOf_visited {s : State} (emit : s.now.sdState = sdsEmit) :
    reportOf (s.now.sdCur ^^^ s.now.sdChg) s.now.sdCur (s.cfg.entry s.now.sdPos.toNat) =
      if chgHit s then some (currentReport s) else none := by
  have mask : s.now.sdCur ^^^ s.now.sdChg ^^^ s.now.sdCur = s.now.sdChg := by
    rw [BitVec.xor_comm s.now.sdCur, BitVec.xor_assoc, BitVec.xor_self, BitVec.xor_zero]
  have hit : chgHit s = s.now.sdChg.getLsbD (s.cfg.entry s.now.sdPos.toNat).idx.toNat := by
    rw [chgHit, emit, beq_self_eq_true, Bool.true_and]
  rw [reportOf, mask, hit]
  rfl

/-! ### One tick -/

/-- What the sink has and what it is still to get. -/
def emission (s : State) : List EventWord := traceWords s ++ (remainingEvents s).map Event.word

theorem emission_of_sdsIdle {s : State} (h : s.now.sdState = sdsIdle) : emission s = traceWords s := by
  rw [emission, remainingEvents_of_sdsIdle h, List.map_nil, List.append_nil]

theorem emission_of_atPosition {s : State} (h : s.AtPosition) :
    emission s = traceWords s ++
      (eventsFrom (s.now.sdCur ^^^ s.now.sdChg) s.now.sdCur s.cfg s.now.sdPos.toNat).map Event.word := by
  rw [emission, remainingEvents_of_atPosition h]

/-- A step with `rst` = 0 and a valid record is a running tick. -/
theorem running_of_step {s t : State} (hrst : s.input.rst = false) (hv : s.cfg.Valid s.plat) (h : step s = .next t) :
    s.Running ∧ t = tickBoundary (afterTick s) := by
  obtain ⟨-, ⟨rst, -⟩ | ⟨-, invalid, -⟩ | running⟩ := step_cases h
  · exact absurd (hrst.symm.trans rst) Bool.false_ne_true
  · exact absurd hv invalid
  · exact running

/-- The tick that takes a word sends nothing and puts the StateDiffer at position 0 with the word and its change mask
(43_state_differ.md R223). -/
theorem sd_take_tick {s t : State} (ht : t = tickBoundary (afterTick s)) (idle : s.now.sdState = sdsIdle)
    (full : s.now.handFull = true) :
    traceWords t = traceWords s ∧ t.now.sdCur = s.now.handWord ∧ t.now.sdChg = s.now.prevWord ^^^ s.now.handWord ∧
      t.now.sdPos.toNat = 0 ∧ t.AtPosition := by
  subst ht
  have pos : (tickBoundary (afterTick s)).now.sdPos = 0#5 := by simp [tick_sdPos, idle, full]
  refine ⟨by simp [traceWords, tick_trace, idle], by simp [tick_sdCur, idle, full], by simp [tick_sdChg, idle, full],
    by rw [pos]; rfl, ?_, ?_⟩
  · rw [pos]; exact Nat.zero_le _
  · rw [pos]; simp [tick_sdState, idle, full]

/-- No tick of a busy StateDiffer writes the frame's word or its change mask (43_state_differ.md R224 to R228). -/
theorem sd_busy_tick_keeps_frame {s t : State} (ht : t = tickBoundary (afterTick s)) (busy : s.now.sdState ≠ sdsIdle) :
    t.cfg = s.cfg ∧ t.plat = s.plat ∧ t.now.sdCur = s.now.sdCur ∧ t.now.sdChg = s.now.sdChg := by
  subst ht
  exact ⟨by simp, by simp, by simp [tick_sdCur, busy], by simp [tick_sdChg, busy]⟩

/-- A busy StateDiffer whose event meets no ready sink waits (43_state_differ.md R226, R228). -/
theorem sd_wait_tick {s t : State} (ht : t = tickBoundary (afterTick s)) (busy : s.now.sdState ≠ sdsIdle)
    (event : s.now.sdState = sdsEmit → chgHit s = true) (stalled : s.input.sinkReady = false) :
    t.now.sdState = s.now.sdState ∧ t.now.sdPos = s.now.sdPos ∧ traceWords t = traceWords s := by
  subst ht
  refine ⟨?_, ?_, by simp [traceWords, tick_trace, stalled]⟩
  · by_cases emit : s.now.sdState = sdsEmit
    · simp [tick_sdState, emit, event emit, stalled]
    · simp [tick_sdState, busy, emit, stalled]
  · by_cases emit : s.now.sdState = sdsEmit
    · simp [tick_sdPos, emit, event emit, stalled]
    · simp [tick_sdPos, busy, emit]

/-- A visit of a map position that does not wait goes on to the next position and sends the entry's REPORT, if it has one
(43_state_differ.md R224, R225). -/
theorem sd_visit_tick {s t : State} (hr : s.Running) (ht : t = tickBoundary (afterTick s))
    (emit : s.now.sdState = sdsEmit) (goes : chgHit s = false ∨ s.input.sinkReady = true) :
    t.now.sdPos.toNat = s.now.sdPos.toNat + 1 ∧ t.AtPosition ∧
      traceWords t = traceWords s ++
        (reportOf (s.now.sdCur ^^^ s.now.sdChg) s.now.sdCur (s.cfg.entry s.now.sdPos.toNat)).toList.map Event.word := by
  obtain ⟨-, -, hv, hw⟩ := hr
  subst ht
  have below := sdPos_lt_len hw emit
  have len16 := len_le_of_valid hv
  have notIdle : s.now.sdState ≠ sdsIdle := by rw [emit]; decide
  have pos : (tickBoundary (afterTick s)).now.sdPos.toNat = s.now.sdPos.toNat + 1 := by
    rw [tickBoundary_now, tick_sdPos, if_neg notIdle, if_pos ⟨emit, goes⟩, BitVec.toNat_add]
    exact Nat.mod_eq_of_lt (Nat.lt_of_le_of_lt (Nat.succ_le_of_lt below) (by omega))
  refine ⟨pos, ⟨by rw [pos]; simpa using below, ?_⟩, ?_⟩
  · rw [pos, tickBoundary_now, tick_sdState, if_neg notIdle, if_pos emit]
    by_cases last : s.now.sdPos.toNat + 1 = s.cfg.len
    · simp [goes, lastEntry, emit, last]
    · have more : s.now.sdPos.toNat + 1 < s.cfg.len := by omega
      simp [lastEntry, emit, last, more]
  · rw [reportOf_visited emit]
    cases hit : chgHit s with
    | false => simp [traceWords, tick_trace, emit, hit]
    | true =>
      have ready : s.input.sinkReady = true := goes.resolve_left (by simp [hit])
      simp [traceWords, tick_trace, emit, hit, ready]

/-- A ready sink in SYNC gets the SYNC event, and the StateDiffer returns to IDLE with the frame's word as `prev_word`
(43_state_differ.md R227). -/
theorem sd_sync_tick {s t : State} (ht : t = tickBoundary (afterTick s)) (busy : s.now.sdState ≠ sdsIdle)
    (notEmit : s.now.sdState ≠ sdsEmit) (ready : s.input.sinkReady = true) :
    t.now.sdState = sdsIdle ∧ t.now.prevWord = s.now.sdCur ∧ traceWords t = traceWords s ++ [Event.sync.word] := by
  subst ht
  exact ⟨by simp [tick_sdState, busy, notEmit, ready], by simp [tick_prevWord, busy, notEmit, ready],
    by simp [traceWords, tick_trace, busy, notEmit, ready]⟩

/-- One tick of a busy StateDiffer changes nothing of what the sink has and is still to get, and a return to IDLE makes the
frame's word `prev_word` (43_state_differ.md R217, R221, R227). -/
theorem sd_busy_tick_conserves_emission {s t : State} (hr : s.Running) (ht : t = tickBoundary (afterTick s))
    (busy : s.now.sdState ≠ sdsIdle) :
    emission t = emission s ∧ (t.now.sdState = sdsIdle → t.now.prevWord = s.now.sdCur) := by
  obtain ⟨cfg, -, cur, chg⟩ := sd_busy_tick_keeps_frame ht busy
  have ⟨_, _, hv, hw⟩ := hr
  have atPos := atPosition_of_busy hw busy
  by_cases waits : (s.now.sdState = sdsEmit → chgHit s = true) ∧ s.input.sinkReady = false
  case pos =>
    obtain ⟨state, pos, words⟩ := sd_wait_tick ht busy waits.1 waits.2
    refine ⟨?_, fun idle => absurd (state ▸ idle) busy⟩
    simp only [emission, remainingEvents, state, pos, cfg, cur, chg, words]
  case neg =>
    by_cases emit : s.now.sdState = sdsEmit
    · have goes : chgHit s = false ∨ s.input.sinkReady = true := by
        cases hit : chgHit s with
        | false => exact .inl rfl
        | true => exact .inr (by simpa [hit] using waits)
      obtain ⟨pos, next, words⟩ := sd_visit_tick hr ht emit goes
      refine ⟨?_, fun idle => absurd idle next.not_idle⟩
      rw [emission_of_atPosition next, emission_of_atPosition atPos, words, cfg, cur, chg, pos,
        eventsFrom_succ _ _ (sdPos_lt_len hw emit) (len_le_of_valid hv), List.map_append, List.append_assoc]
    · have ready : s.input.sinkReady = true := by simpa [emit] using waits
      obtain ⟨idle, prev, words⟩ := sd_sync_tick ht busy emit ready
      refine ⟨?_, fun _ => prev⟩
      have last : remainingEvents s = [.sync] := by rw [remainingEvents, sd_sync hw busy emit]; rfl
      rw [emission_of_sdsIdle idle, words, emission, last]
      rfl

/-! ### The run from the take to the return to IDLE -/

/-- A run of at least one step begins with a step. -/
theorem exists_step_of_run {n : Nat} {s t : State} (h : Host.Core.run Sys2Proof.core (n + 1) s = .next t) :
    ∃ u, step s = .next u ∧ Host.Core.run Sys2Proof.core n u = .next t := by
  cases first : Sys2Proof.core.step s with
  | next u => exact ⟨u, first, (run_succ first).symm.trans h⟩
  | fault f => simp only [Host.Core.run, first] at h; cases h
  | refused r => simp only [Host.Core.run, first] at h; cases h

/-- The StateDiffer is busy in each of the first `n` states of the run. -/
def State.BusyFor (n : Nat) (s : State) : Prop :=
  ∀ k u, k < n → Host.Core.run Sys2Proof.core k s = .next u → u.now.sdState ≠ sdsIdle

theorem State.BusyFor.not_idle {n : Nat} {s : State} (h : s.BusyFor (n + 1)) : s.now.sdState ≠ sdsIdle :=
  h 0 s (Nat.succ_pos n) rfl

theorem State.BusyFor.step {n : Nat} {s u : State} (h : s.BusyFor (n + 1)) (hs : step s = .next u) : u.BusyFor n :=
  fun k v hk run => h (k + 1) v (Nat.succ_lt_succ hk) ((run_succ hs).trans run)

/-- A run of a busy StateDiffer that ends with its first return to IDLE sends exactly what was still to be sent, and leaves
the frame's word as `prev_word`. -/
theorem busy_run_sends_emission {n : Nat} {s t : State} (hv : s.cfg.Valid s.plat) (hu : s.Undisturbed (n + 1))
    (busy : s.BusyFor (n + 1)) (run : Host.Core.run Sys2Proof.core (n + 1) s = .next t)
    (idle : t.now.sdState = sdsIdle) :
    traceWords t = emission s ∧ t.now.prevWord = s.now.sdCur := by
  induction n generalizing s with
  | zero =>
    obtain ⟨u, hs, rest⟩ := exists_step_of_run run
    cases rest
    obtain ⟨hr, ht⟩ := running_of_step (hu 0 Nat.one_pos).1 hv hs
    obtain ⟨conserved, prev⟩ := sd_busy_tick_conserves_emission hr ht busy.not_idle
    exact ⟨(emission_of_sdsIdle idle).symm.trans conserved, prev idle⟩
  | succ n ih =>
    obtain ⟨u, hs, rest⟩ := exists_step_of_run run
    obtain ⟨hr, ht⟩ := running_of_step (hu 0 (Nat.succ_pos _)).1 hv hs
    obtain ⟨conserved, -⟩ := sd_busy_tick_conserves_emission hr ht busy.not_idle
    obtain ⟨cfg, plat, cur, -⟩ := sd_busy_tick_keeps_frame ht busy.not_idle
    obtain ⟨words, prev⟩ := ih (by rwa [cfg, plat]) (undisturbed_step hu hs cfg) (busy.step hs) rest
    exact ⟨words.trans conserved, prev.trans cur⟩

/-- The tick that takes the word c leaves `diff(prev_word, c, MAP, L)` to be sent (43_state_differ.md R216, R223). -/
theorem sd_take_tick_emission {s t : State} (ht : t = tickBoundary (afterTick s)) (idle : s.now.sdState = sdsIdle)
    (full : s.now.handFull = true) :
    emission t = traceWords s ++ (diff s.now.prevWord s.now.handWord s.cfg).map Event.word := by
  obtain ⟨words, cur, chg, pos, atPos⟩ := sd_take_tick ht idle full
  have cfg : t.cfg = s.cfg := by simp [ht]
  have before : s.now.handWord ^^^ (s.now.prevWord ^^^ s.now.handWord) = s.now.prevWord := by
    rw [BitVec.xor_comm, BitVec.xor_assoc, BitVec.xor_self, BitVec.xor_zero]
  rw [emission_of_atPosition atPos, words, cur, chg, pos, cfg, before, eventsFrom_zero]

/-- Settles O53: the take leaves the diff to be sent, and the run of the busy StateDiffer sends what was left. -/
theorem emissionEqualsTheDiff : Obligations.EmissionEqualsTheDiff := by
  rintro n s t ⟨-, rst, valid, -⟩ idle full hn hu run idleEnd firstReturn
  obtain ⟨m, rfl⟩ : ∃ m, n = m + 1 := ⟨n - 1, by omega⟩
  obtain ⟨u, hs, rest⟩ := exists_step_of_run run
  obtain ⟨-, ht⟩ := running_of_step rst valid hs
  obtain ⟨-, cur, -, -, atPos⟩ := sd_take_tick ht idle full
  have cfg : u.cfg = s.cfg := by simp [ht]
  have plat : u.plat = s.plat := by simp [ht]
  have busy : u.BusyFor m := fun k v hk hrun =>
    firstReturn (k + 1) v (Nat.succ_pos k) (Nat.succ_lt_succ hk) ((run_succ hs).trans hrun)
  cases m with
  | zero => cases rest; exact absurd idleEnd atPos.not_idle
  | succ m =>
    obtain ⟨words, prev⟩ :=
      busy_run_sends_emission (by rwa [cfg, plat]) (undisturbed_step hu hs cfg) busy rest idleEnd
    exact ⟨words.trans (sd_take_tick_emission ht idle full), prev.trans cur⟩

end Sys2Proof.Machine
end

section
/-! PROOFS. UNREACHABLE (60_exceptions.md R287): the reset record satisfies WF, every step keeps it, and a step from a
well-formed record raises no fault. Of a running tick the ten conditions of 10_state.md R47 fall to three parts: the reader
that the mode uses with its BitSampler, the poll timer, and the handoff with the StateDiffer. -/

namespace Sys2Proof.Machine

/-! ### The delays requested, 30_encoding.md R107 -/

/-- A delay of `k*TU` ticks is not cut by the 16-bit field and is at least 1. -/
theorem one_le_ofNat_mul_tu {p : Platform} (hp : p.InRange) {k : Nat} (hk : 1 ≤ k) (hk12 : k ≤ 12) :
    1 ≤ (BitVec.ofNat 16 (k * p.tu)).toNat := by
  obtain ⟨-, tuPos, tuLe⟩ := hp
  have pos : 1 ≤ k * p.tu := Nat.mul_pos hk tuPos
  have fits : k * p.tu ≤ 12 * 5461 := Nat.mul_le_mul hk12 tuLe
  rwa [BitVec.toNat_ofNat, Nat.mod_eq_of_lt (by omega)]

/-- The four delays of the SSR are at least 1. -/
theorem one_le_ssrDelays {p : Platform} (hp : p.InRange) :
    1 ≤ (tLh p).toNat ∧ 1 ≤ (tLs p).toNat ∧ 1 ≤ (tCh p).toNat ∧ 1 ≤ (tCl p).toNat := by
  have twelve := one_le_ofNat_mul_tu hp (k := 12) (by decide) (by decide)
  have six := one_le_ofNat_mul_tu hp (k := 6) (by decide) (by decide)
  exact ⟨twelve, six, six, six⟩

/-- The bit period of a valid record in ASYNC mode, 44_top_control.md R250 condition 5. -/
theorem two_le_bitPeriod {p : Platform} {c : Cfg} (hv : c.Valid p) (hm : c.mode = .async) : 2 ≤ c.bitPeriod.toNat := by
  obtain ⟨-, -, -, -, -, bitPeriod, -⟩ := (valid_iff p c).1 hv
  exact (bitPeriod hm).1

theorem one_le_half {p : Platform} {c : Cfg} (hv : c.Valid p) (hm : c.mode = .async) : 1 ≤ (half c).toNat := by
  have two := two_le_bitPeriod hv hm
  rw [half, BitVec.toNat_udiv]
  exact Nat.div_pos two (by decide)

/-- A count that is not at its last tick has a tick left. -/
theorem one_le_sub_one {x : BitVec 16} (pos : 1 ≤ x.toNat) (more : x ≠ 1#16) : 1 ≤ (x - 1#16).toNat := by
  bv_omega

/-! ### The SyncShiftReader and its BitSampler -/

/-- What WF says in SYNC mode of the SSR and of the BitSampler that works for it, phase by phase (10_state.md R47,
conditions 1, 3 to 7 and 10). -/
inductive SsrOk (w : Nat) : SsrView → Prop
  | idle (kind : ReqKind) (rem : BitVec 16) (fb : Bool) : SsrOk w ⟨phIdle, 0#5, 0#16, false, kind, rem, fb⟩
  | latch {acc : ButtonWord} {rem : BitVec 16} (fb : Bool) (fits : FitsIn w acc) (pos : 1 ≤ rem.toNat) :
      SsrOk w ⟨phLatch, 0#5, acc, true, .delay, rem, fb⟩
  | settle {acc : ButtonWord} {rem : BitVec 16} (fits : FitsIn w acc) (pos : 1 ≤ rem.toNat) :
      SsrOk w ⟨phSettle, 0#5, acc, true, .sample, rem, true⟩
  | clkHigh {bit : BitVec 5} {acc : ButtonWord} {rem : BitVec 16} (fb : Bool)
      (range : 1 ≤ bit.toNat ∧ bit.toNat ≤ w) (fits : FitsIn w acc) (pos : 1 ≤ rem.toNat) :
      SsrOk w ⟨phClkHigh, bit, acc, true, .delay, rem, fb⟩
  | clkLow {bit : BitVec 5} {acc : ButtonWord} {rem : BitVec 16}
      (range : 1 ≤ bit.toNat ∧ bit.toNat ≤ w - 1) (fits : FitsIn w acc) (pos : 1 ≤ rem.toNat) :
      SsrOk w ⟨phClkLow, bit, acc, true, .sample, rem, true⟩
  | clkTail {bit : BitVec 5} {acc : ButtonWord} {rem : BitVec 16} (fb : Bool)
      (full : bit.toNat = w) (fits : FitsIn w acc) (pos : 1 ≤ rem.toNat) :
      SsrOk w ⟨phClkTail, bit, acc, true, .delay, rem, fb⟩

/-- WF puts the SSR into one of its six phases. -/
theorem ssrOk_of_wf {c : Cfg} {r : Regs} (hm : c.mode = .sync) (hw : WF c r) : SsrOk c.w (ssrView r) := by
  have busy := hw.busy.1 hm
  have idle := hw.idle.1
  obtain ⟨atZero, atLow, atHigh, atTail⟩ := hw.ssrBit
  obtain ⟨delays, samples, -⟩ := hw.request
  have fits := hw.words.1
  have pos := hw.rem
  rcases hw.phase with ph | ph | ph | ph | ph | ph <;> simp [ph] at busy atZero atLow atHigh atTail delays samples
  case inl =>
    obtain ⟨bit, acc⟩ := idle ph
    rw [ssrView, ph, bit, acc, busy]
    exact .idle _ _ _
  case inr.inl =>
    rw [ssrView, ph, atZero, busy, delays]
    exact .latch _ fits (pos busy)
  case inr.inr.inl =>
    obtain ⟨kind, fb⟩ := samples
    rw [ssrView, ph, atZero, busy, kind, fb]
    exact .settle fits (pos busy)
  case inr.inr.inr.inl =>
    rw [ssrView, ph, busy, delays]
    exact .clkHigh _ atHigh fits (pos busy)
  case inr.inr.inr.inr.inl =>
    obtain ⟨kind, fb⟩ := samples
    rw [ssrView, ph, busy, kind, fb]
    exact .clkLow atLow fits (pos busy)
  case inr.inr.inr.inr.inr =>
    rw [ssrView, ph, busy, delays]
    exact .clkTail _ atTail fits (pos busy)

section
variable {w : Nat} {v : SsrView}

theorem SsrOk.phase (h : SsrOk w v) :
    v.phase = phIdle ∨ v.phase = phLatch ∨ v.phase = phSettle ∨ v.phase = phClkHigh ∨ v.phase = phClkLow ∨
      v.phase = phClkTail := by
  cases h <;> simp

theorem SsrOk.rem_pos (h : SsrOk w v) (busy : v.busy = true) : 1 ≤ v.rem.toNat := by
  cases h
  case idle => cases busy
  all_goals assumption

theorem SsrOk.busy_eq (h : SsrOk w v) : v.busy = v.phase.getLsbD 3 := by
  cases h <;> simp [phIdle, phLatch, phSettle, phClkHigh, phClkLow, phClkTail]

theorem SsrOk.fits (h : SsrOk w v) : FitsIn w v.acc := by
  cases h
  case idle => exact fitsIn_zero w
  all_goals assumption

theorem SsrOk.clear (h : SsrOk w v) (idle : v.phase = phIdle) : v.bit = 0#5 ∧ v.acc = 0#16 := by
  cases h
  case idle => exact ⟨rfl, rfl⟩
  all_goals simp [phIdle, phLatch, phSettle, phClkHigh, phClkLow, phClkTail] at idle

theorem SsrOk.bit_range (h : SsrOk w v) :
    (v.phase = phLatch ∨ v.phase = phSettle → v.bit = 0#5) ∧
    (v.phase = phClkLow → 1 ≤ v.bit.toNat ∧ v.bit.toNat ≤ w - 1) ∧
    (v.phase = phClkHigh → 1 ≤ v.bit.toNat ∧ v.bit.toNat ≤ w) ∧ (v.phase = phClkTail → v.bit.toNat = w) := by
  cases h <;> simp_all [phIdle, phLatch, phSettle, phClkHigh, phClkLow, phClkTail]

theorem SsrOk.request (h : SsrOk w v) :
    (v.phase = phLatch ∨ v.phase = phClkHigh ∨ v.phase = phClkTail → v.kind = .delay) ∧
    (v.phase = phSettle ∨ v.phase = phClkLow → v.kind = .sample ∧ v.fb = true) := by
  cases h <;> simp [phIdle, phLatch, phSettle, phClkHigh, phClkLow, phClkTail]

/-- A phase waits while its delay has more than one tick left (41_sync_reader.md R158). -/
theorem SsrOk.wait (h : SsrOk w v) (left : v.phase ≠ phIdle) (more : v.rem ≠ 1#16) :
    SsrOk w { v with rem := v.rem - 1#16 } := by
  cases h with
  | idle => exact absurd rfl left
  | latch fb fits pos => exact .latch fb fits (one_le_sub_one pos more)
  | settle fits pos => exact .settle fits (one_le_sub_one pos more)
  | clkHigh fb range fits pos => exact .clkHigh fb range fits (one_le_sub_one pos more)
  | clkLow range fits pos => exact .clkLow range fits (one_le_sub_one pos more)
  | clkTail fb full fits pos => exact .clkTail fb full fits (one_le_sub_one pos more)

end

/-- The phases in which the SSR samples, and its bit count there (41_sync_reader.md R160). -/
theorem ssrBit_lt_of_samples {p : Platform} {c : Cfg} {r : Regs} (hv : c.Valid p) (hw : WF c r)
    (h : r.ssrPhase = phSettle ∨ r.ssrPhase = phClkLow) : r.ssrBit.toNat < c.w := by
  obtain ⟨width, -⟩ := width_bounds hv
  obtain ⟨atZero, atLow, -⟩ := hw.ssrBit
  rcases h with settle | low
  · rw [atZero (.inr settle)]
    exact Nat.lt_of_lt_of_le (by decide) width
  · have range := atLow low
    omega

/-- The next bit count of a reader whose word is not full. -/
theorem toNat_bit_succ {w : Nat} {bit : BitVec 5} (below : bit.toNat < w) (h16 : w ≤ 16) :
    (bit + 1#5).toNat = bit.toNat + 1 := by
  rw [BitVec.toNat_add]
  exact Nat.mod_eq_of_lt (by simp; omega)

/-- The SSR's tick leaves one of its six phases as WF has it (41_sync_reader.md R155 to R162). -/
theorem ssrNext_ok {s : State} (hr : s.Running) (hm : s.cfg.mode = .sync) : SsrOk s.cfg.w (ssrNext s) := by
  obtain ⟨⟨inRange, -⟩, -, valid, hw⟩ := hr
  have before : SsrOk s.cfg.w (ssrView s.now) := ssrOk_of_wf hm hw
  obtain ⟨lh, ls, ch, cl⟩ := one_le_ssrDelays inRange
  have fits : FitsIn s.cfg.w s.now.ssrAcc := hw.words.1
  obtain ⟨atZero, -, atHigh, -⟩ := hw.ssrBit
  obtain ⟨-, w16⟩ := width_bounds valid
  unfold ssrNext
  split_ifs with abort idle strobe more latch high full tail
  · exact .idle _ _ _
  · exact .latch _ (fitsIn_zero _) lh
  · exact before
  · exact before.wait idle more
  · rw [atZero (.inl latch)]
    exact .settle fits ls
  · exact .clkTail _ full fits cl
  · have range := atHigh high
    exact .clkLow ⟨range.1, by omega⟩ fits cl
  · exact .idle _ _ _
  · have samples : s.now.ssrPhase = phSettle ∨ s.now.ssrPhase = phClkLow := by
      have phase := hw.phase
      tauto
    have below := ssrBit_lt_of_samples valid hw samples
    have next := toNat_bit_succ below w16
    exact .clkHigh _ ⟨by omega, by omega⟩ (fitsIn_orBit fits _ below w16) ch

/-! ### The AsyncFrameReader and its BitSampler -/

/-- What WF says in ASYNC mode of the AFR and of the BitSampler that works for it (10_state.md R47, conditions 3 to 5, 7
and 10). -/
inductive AfrOk (w : Nat) : AfrView → Prop
  | idle (sync : Bool) (kind : ReqKind) (rem : BitVec 16) (fb : Bool) :
      AfrOk w ⟨false, 0#5, 0#16, sync, false, kind, rem, fb⟩
  | sampling {bit : BitVec 5} {acc : ButtonWord} {rem : BitVec 16} (sync : Bool) (range : bit.toNat ≤ w - 1)
      (fits : FitsIn w acc) (pos : 1 ≤ rem.toNat) : AfrOk w ⟨true, bit, acc, sync, true, .sample, rem, false⟩

theorem afrOk_of_wf {c : Cfg} {r : Regs} (hm : c.mode = .async) (hw : WF c r) : AfrOk c.w (afrView r) := by
  have busy := hw.busy.2 hm
  cases sampling : r.afrSampling with
  | false =>
    obtain ⟨bit, acc⟩ := hw.idle.2 sampling
    rw [afrView, busy, sampling, bit, acc]
    exact .idle _ _ _ _
  | true =>
    obtain ⟨-, -, request⟩ := hw.request
    obtain ⟨kind, fb, range⟩ := request sampling
    obtain ⟨-, fits, -⟩ := hw.words
    rw [afrView, busy, sampling, kind, fb]
    exact .sampling _ range fits (hw.rem (busy.trans sampling))

section
variable {w : Nat} {v : AfrView}

theorem AfrOk.rem_pos (h : AfrOk w v) (busy : v.busy = true) : 1 ≤ v.rem.toNat := by
  cases h with
  | idle => cases busy
  | sampling _ _ _ pos => exact pos

theorem AfrOk.busy_eq (h : AfrOk w v) : v.busy = v.sampling := by
  cases h <;> rfl

theorem AfrOk.fits (h : AfrOk w v) : FitsIn w v.acc := by
  cases h with
  | idle => exact fitsIn_zero w
  | sampling _ _ fits => exact fits

theorem AfrOk.clear (h : AfrOk w v) (idle : v.sampling = false) : v.bit = 0#5 ∧ v.acc = 0#16 := by
  cases h with
  | idle => exact ⟨rfl, rfl⟩
  | sampling => cases idle

theorem AfrOk.request (h : AfrOk w v) (sampling : v.sampling = true) :
    v.kind = .sample ∧ v.fb = false ∧ v.bit.toNat ≤ w - 1 := by
  cases h with
  | idle => cases sampling
  | sampling _ range => exact ⟨rfl, rfl, range⟩

/-- The reader waits while its delay has more than one tick left (42_async_reader.md R187, R188). -/
theorem AfrOk.wait (h : AfrOk w v) (sampling : v.sampling = true) (more : v.rem ≠ 1#16) :
    AfrOk w { v with rem := v.rem - 1#16 } := by
  cases h with
  | idle => cases sampling
  | sampling sync range fits pos => exact .sampling sync range fits (one_le_sub_one pos more)

/-- A sample that does not complete the word goes on to the next bit (42_async_reader.md R189). -/
theorem AfrOk.sample (h : AfrOk w v) (sampling : v.sampling = true) (h16 : w ≤ 16) (notLast : v.bit.toNat ≠ w - 1)
    (b : Bool) {d : BitVec 16} (pos : 1 ≤ d.toNat) :
    AfrOk w { v with bit := v.bit + 1#5, acc := orBit v.acc b v.bit.toNat, rem := d } := by
  cases h with
  | idle => cases sampling
  | @sampling bit acc rem sync range fits _ =>
    have more : bit.toNat ≠ w - 1 := notLast
    have below : bit.toNat < w := by omega
    have next : (bit + 1#5).toNat ≤ w - 1 := by rw [toNat_bit_succ below h16]; omega
    exact .sampling sync next (fitsIn_orBit fits b below h16) pos

end

/-- The AFR's tick leaves a reader as WF has it (42_async_reader.md R184 to R190). -/
theorem afrNext_ok {s : State} (hr : s.Running) (hm : s.cfg.mode = .async) : AfrOk s.cfg.w (afrNext s) := by
  obtain ⟨-, -, valid, hw⟩ := hr
  have before : AfrOk s.cfg.w (afrView s.now) := afrOk_of_wf hm hw
  obtain ⟨-, w16⟩ := width_bounds valid
  have period := two_le_bitPeriod valid hm
  unfold afrNext
  split_ifs with abort idle edge more last handshake
  · exact .idle _ _ _ _
  · exact .sampling _ (Nat.zero_le _) (fitsIn_zero _) (one_le_half valid hm)
  · exact before
  · exact before.wait (Bool.eq_true_of_not_eq_false idle) more
  · exact .idle _ _ _ _
  · exact .idle _ _ _ _
  · exact before.sample (Bool.eq_true_of_not_eq_false idle) w16 last _ (Nat.le_of_succ_le period)

/-! ### The poll timer -/

/-- In SYNC mode the poll counter stays below the period (41_sync_reader.md R151, R152). -/
theorem pollCnt_tick_le {s : State} (hr : s.Running) (hm : s.cfg.mode = .sync) :
    (afterTick s).nxt.pollCnt.toNat ≤ s.cfg.pollPeriod.toNat - 1 := by
  obtain ⟨⟨⟨ticks, -⟩, -⟩, -, valid, hw⟩ := hr
  obtain ⟨-, -, -, -, poll, -⟩ := (valid_iff _ _).1 valid
  have period : 1 ≤ s.cfg.pollPeriod.toNat := ticks.trans (poll hm).1
  have before := (hw.mode.1 hm).2
  rw [tick_pollCnt]
  split_ifs with last
  · exact Nat.zero_le _
  · have notLast : s.now.pollCnt ≠ s.cfg.pollPeriod - 1#32 := fun h => last (.inr h)
    bv_omega

/-! ### The StateDiffer and the words -/

/-- Conditions 2 and 9 of 10_state.md R47 hold at a busy position. -/
theorem wfSd_of_atPosition {s : State} (h : s.AtPosition) : WfSdState s.now ∧ WfSdPos s.cfg s.now := by
  have notIdle := h.not_idle
  obtain ⟨le, state⟩ := h
  by_cases below : s.now.sdPos.toNat < s.cfg.len
  · rw [if_pos below] at state
    simp [WfSdPos, state, below, sdsIdle, sdsEmit, sdsSync]
  · rw [if_neg below] at state
    simp [WfSdPos, state, Nat.le_antisymm le (Nat.le_of_not_lt below), sdsIdle, sdsEmit, sdsSync]

/-- A StateDiffer in IDLE meets conditions 2 and 9 of 10_state.md R47 with any map position up to MAP_LEN. -/
theorem wfSd_of_idle {c : Cfg} {r : Regs} (idle : r.sdState = sdsIdle) (pos : r.sdPos.toNat ≤ c.len) :
    WfSdState r ∧ WfSdPos c r := by
  simp [WfSdPos, idle, pos, sdsIdle, sdsEmit, sdsSync]

/-- A running tick keeps conditions 2 and 9 of 10_state.md R47. -/
theorem sd_tick_keeps_wf {s t : State} (hr : s.Running) (ht : t = tickBoundary (afterTick s)) :
    WfSdState t.now ∧ WfSdPos t.cfg t.now := by
  have ⟨_, _, _, hw⟩ := hr
  obtain ⟨-, idlePos, syncPos⟩ := hw.sdPos
  have cfg : t.cfg = s.cfg := by simp [ht]
  by_cases idle : s.now.sdState = sdsIdle
  · cases full : s.now.handFull with
    | true =>
      obtain ⟨-, -, -, -, next⟩ := sd_take_tick ht idle full
      exact wfSd_of_atPosition next
    | false =>
      have pos : t.now.sdPos = s.now.sdPos := by simp [ht, tick_sdPos, idle, full]
      exact wfSd_of_idle (by simp [ht, tick_sdState, idle, full]) (by rw [pos, cfg]; exact idlePos idle)
  · by_cases waits : (s.now.sdState = sdsEmit → chgHit s = true) ∧ s.input.sinkReady = false
    · obtain ⟨state, pos, -⟩ := sd_wait_tick ht idle waits.1 waits.2
      simp only [WfSdState, WfSdPos, state, pos, cfg]
      exact ⟨hw.sdState, hw.sdPos⟩
    · by_cases emit : s.now.sdState = sdsEmit
      · have goes : chgHit s = false ∨ s.input.sinkReady = true := by
          cases hit : chgHit s with
          | false => exact .inl rfl
          | true => exact .inr (by simpa [hit] using waits)
        obtain ⟨-, next, -⟩ := sd_visit_tick hr ht emit goes
        exact wfSd_of_atPosition next
      · have ready : s.input.sinkReady = true := by simpa [emit] using waits
        obtain ⟨done, -, -⟩ := sd_sync_tick ht idle emit ready
        have pos : t.now.sdPos = s.now.sdPos := by simp [ht, tick_sdPos, idle, emit]
        exact wfSd_of_idle done (by rw [pos, cfg]; exact (syncPos (sd_sync hw idle emit)).le)

/-- A word that a reader completes has no bit at WIDTH or above (41_sync_reader.md R162, 42_async_reader.md R190). -/
theorem completedWord_fits {p : Platform} {s : State} {x : ButtonWord} (hv : s.cfg.Valid p) (hw : WF s.cfg s.now)
    (h : completedWord s = some x) : FitsIn s.cfg.w x := by
  obtain ⟨ssrFits, afrFits, -⟩ := hw.words
  obtain ⟨w11, w16⟩ := width_bounds hv
  unfold completedWord at h
  split_ifs at h
  all_goals cases h
  · exact ssrFits
  · exact fitsIn_orBit afrFits _ (by omega) w16

/-- A running tick keeps the words of the handoff and of the StateDiffer within WIDTH (10_state.md R47, condition 10). -/
theorem words_tick_fit {s : State} (hr : s.Running) :
    FitsIn s.cfg.w (afterTick s).nxt.handWord ∧ FitsIn s.cfg.w (afterTick s).nxt.sdCur ∧
      FitsIn s.cfg.w (afterTick s).nxt.sdChg ∧ FitsIn s.cfg.w (afterTick s).nxt.prevWord := by
  obtain ⟨-, -, valid, hw⟩ := hr
  obtain ⟨-, -, hand, cur, chg, prev⟩ := hw.words
  rw [tick_handWord, tick_sdCur, tick_sdChg, tick_prevWord]
  refine ⟨?_, ?_, ?_, ?_⟩
  · split_ifs with entered
    · rcases word_cases hw with ⟨-, word⟩ | ⟨noWrite, -⟩
      · exact completedWord_fits valid hw word
      · exact absurd (noWrite.symm.trans entered.1) Bool.false_ne_true
    · exact hand
  · split_ifs
    · exact hand
    · exact cur
  · split_ifs
    · exact fitsIn_xor prev hand
    · exact chg
  · split_ifs
    · exact cur
    · exact prev

/-! ### WF along a run, 10_state.md R47 -/

/-- An SSR in IDLE meets conditions 6 and 7 of 10_state.md R47. -/
theorem wfSsr_of_idle {r : Regs} (c : Cfg) (idle : r.ssrPhase = phIdle) :
    WfSsrBit c r ∧ (r.ssrPhase = phLatch ∨ r.ssrPhase = phClkHigh ∨ r.ssrPhase = phClkTail → r.bsKind = .delay) ∧
      (r.ssrPhase = phSettle ∨ r.ssrPhase = phClkLow → r.bsKind = .sample ∧ r.bsFb = true) := by
  simp [WfSsrBit, idle, phIdle, phLatch, phSettle, phClkHigh, phClkLow, phClkTail]

/-- A running tick in SYNC mode keeps WF. -/
theorem sync_tick_keeps_wf {s : State} (hr : s.Running) (hm : s.cfg.mode = .sync) : WF s.cfg (afterTick s).nxt := by
  have ⟨_, _, _, hw⟩ := hr
  have ssr : SsrOk s.cfg.w (ssrView (afterTick s).nxt) := by rw [sync_tick hm hw]; exact ssrNext_ok hr hm
  obtain ⟨afrIdle, afrBit, afrAcc⟩ := sync_afr_idle hm hw
  have notSampling {P : Prop} (h : (afterTick s).nxt.afrSampling = true) : P :=
    absurd (afrIdle.symm.trans h) Bool.false_ne_true
  have notAsync {P : Prop} (h : s.cfg.mode = .async) : P := by rw [hm] at h; cases h
  obtain ⟨sdState, sdPos⟩ := sd_tick_keeps_wf hr rfl
  rw [wf_iff]
  refine ⟨ssr.phase, sdState, ssr.rem_pos, ⟨fun _ => ssr.busy_eq, notAsync⟩, ⟨ssr.clear, fun _ => ⟨afrBit, afrAcc⟩⟩,
    ssr.bit_range, ⟨ssr.request.1, ssr.request.2, notSampling⟩, ⟨fun _ => ⟨afrIdle, pollCnt_tick_le hr hm⟩, notAsync⟩,
    by simpa using sdPos, ssr.fits, ?_, words_tick_fit hr⟩
  rw [afrAcc]
  exact fitsIn_zero _

/-- A running tick in ASYNC mode keeps WF. -/
theorem async_tick_keeps_wf {s : State} (hr : s.Running) (hm : s.cfg.mode = .async) : WF s.cfg (afterTick s).nxt := by
  have ⟨_, _, _, hw⟩ := hr
  have afr : AfrOk s.cfg.w (afrView (afterTick s).nxt) := by rw [async_tick hm hw]; exact afrNext_ok hr hm
  obtain ⟨phase, bit, acc⟩ := async_ssr_idle hm hw
  have pollOff : (afterTick s).nxt.pollCnt = 0#32 := by rw [tick_pollCnt, if_pos (.inl hm)]
  have notSync {P : Prop} (h : s.cfg.mode = .sync) : P := by rw [hm] at h; cases h
  obtain ⟨sdState, sdPos⟩ := sd_tick_keeps_wf hr rfl
  obtain ⟨ssrBit, delays, samples⟩ := wfSsr_of_idle s.cfg phase
  rw [wf_iff]
  refine ⟨.inl phase, sdState, afr.rem_pos, ⟨notSync, fun _ => afr.busy_eq⟩, ⟨fun _ => ⟨bit, acc⟩, afr.clear⟩,
    ssrBit, ⟨delays, samples, afr.request⟩, ⟨notSync, fun _ => ⟨phase, pollOff⟩⟩,
    by simpa using sdPos, ?_, afr.fits, words_tick_fit hr⟩
  rw [acc]
  exact fitsIn_zero _

/-- `S_rst(CFG)` satisfies WF for every record: both readers and the StateDiffer are in IDLE and every word is 0. -/
theorem wf_reset (c : Cfg) : WF c (Regs.reset c) := by
  have ssr : SsrOk c.w (ssrView (Regs.reset c)) := .idle _ _ _
  have afr : AfrOk c.w (afrView (Regs.reset c)) := .idle _ _ _ _
  have word := fitsIn_zero c.w
  obtain ⟨sdState, sdPos⟩ := wfSd_of_idle (c := c) (r := Regs.reset c) rfl (Nat.zero_le _)
  rw [wf_iff]
  exact ⟨ssr.phase, sdState, ssr.rem_pos, ⟨fun _ => ssr.busy_eq, fun _ => afr.busy_eq⟩, ⟨ssr.clear, afr.clear⟩,
    ssr.bit_range, ⟨ssr.request.1, ssr.request.2, afr.request⟩, ⟨fun _ => ⟨rfl, Nat.zero_le _⟩, fun _ => ⟨rfl, rfl⟩⟩,
    sdPos, ssr.fits, afr.fits, word, word, word, word⟩

/-- Every step that completes leaves a well-formed record: a reset and an inert tick leave `S_rst`, and a running tick starts
from WF and keeps it in either mode. -/
theorem wf_of_step {s t : State} (h : step s = .next t) : WF t.cfg t.now := by
  obtain ⟨-, ⟨-, rfl⟩ | ⟨-, -, rfl⟩ | ⟨running, rfl⟩⟩ := step_cases h
  · exact wf_reset _
  · exact wf_reset _
  · rw [tickBoundary_now, tickBoundary_cfg, afterTick_cfg]
    cases mode : s.cfg.mode with
    | sync => exact sync_tick_keeps_wf running mode
    | async => exact async_tick_keeps_wf running mode

/-! ### UNREACHABLE, 60_exceptions.md R287 -/

/-- A tick that the model does not accept is refused (44_top_control.md R259). -/
theorem step_not_accepted {s : State} (h : ¬ s.Accepted) : ∃ r, step s = .refused r := by
  by_cases inRange : s.plat.InRange
  · have changed : s.input.rst = false ∧ s.cfgIn ≠ s.cfg := by
      by_contra same
      exact h ⟨inRange, fun rst => by_contra fun ne => same ⟨rst, ne⟩⟩
    exact ⟨.cfgChangedWithoutReset, by rw [step, if_neg (not_not.2 inRange), if_pos changed]⟩
  · exact ⟨.platformOutOfRange, by rw [step, if_pos inRange]⟩

/-- A step from a well-formed record completes or is refused. -/
theorem step_ne_fault_of_wf {s : State} (hw : WF s.cfg s.now) (f : Fault) : step s ≠ .fault f := by
  intro fault
  by_cases accepted : s.Accepted
  · cases rst : s.input.rst with
    | true => rw [step_reset s accepted.1 rst] at fault; cases fault
    | false =>
      by_cases valid : s.cfg.Valid s.plat
      · rw [step_running s ⟨accepted, rst, valid, hw⟩] at fault; cases fault
      · rw [step_inert s accepted rst valid] at fault; cases fault
  · obtain ⟨r, refused⟩ := step_not_accepted accepted
    rw [refused] at fault; cases fault

/-- No run from a well-formed record ends in a fault. -/
theorem run_ne_fault_of_wf {s : State} (hw : WF s.cfg s.now) (n : Nat) (f : Fault) :
    Host.Core.run Sys2Proof.core n s ≠ .fault f := by
  induction n generalizing s with
  | zero => rw [run_zero]; nofun
  | succ n ih =>
    cases first : step s with
    | next t => rw [run_succ first]; exact ih (wf_of_step first)
    | fault g => exact absurd first (step_ne_fault_of_wf hw g)
    | refused r =>
      have refused : Sys2Proof.core.step s = .refused r := first
      simp only [Host.Core.run, refused]
      nofun

/-- Settles O30: a running tick of an ill-formed record stops at TOP_RUN's check, and the runs from reset start in
`S_rst`, which satisfies WF. -/
theorem unreachableIsNeverRaisedFromReset : Obligations.UnreachableIsNeverRaisedFromReset := by
  refine ⟨step_faults, fun p c stim n f => ?_⟩
  have start : WF { State.resetWith p c with stim := stim }.cfg { State.resetWith p c with stim := stim }.now := wf_reset c
  exact run_ne_fault_of_wf start n f

end Sys2Proof.Machine
end

section
/-! PROOFS. Undisturbed runs: the states that a machine goes through while the owner keeps the record, one induction over
them, and the two counters that run there whatever else happens, the BitSampler's and the poll timer's. -/

namespace Sys2Proof.Machine

/-! ### The states of an undisturbed run -/

/-- Parameters and record that the model accepts, well-formed registers, and `n` ticks that the owner does not disturb. -/
structure State.Steady (n : Nat) (s : State) : Prop where
  inRange : s.plat.InRange
  valid : s.cfg.Valid s.plat
  ok : WF s.cfg s.now
  undisturbed : s.Undisturbed n

/-- `t` stands `k` running ticks after `s`: the record is the same, the environment is `k` ticks on. -/
structure State.Reaches (k : Nat) (s t : State) : Prop where
  run : Host.Core.run Sys2Proof.core k s = .next t
  plat : t.plat = s.plat
  cfg : t.cfg = s.cfg
  ok : WF t.cfg t.now
  stim : t.stim = stimAfter k s.stim
  tick : t.tick = s.tick + k

theorem State.Reaches.refl {s : State} (hw : WF s.cfg s.now) : s.Reaches 0 s := ⟨rfl, rfl, rfl, hw, rfl, rfl⟩

section
variable {k n : Nat} {s t : State}

/-- The inputs of the tick are those of the environment `k` ticks on. -/
theorem State.Reaches.input (h : s.Reaches k t) : t.input = (s.envAfter k).input := by
  simp only [State.input, State.envAfter, h.stim, h.tick]

theorem State.Reaches.cfgIn (h : s.Reaches k t) : t.cfgIn = (s.envAfter k).cfgIn := by
  simp only [State.cfgIn, State.envAfter, h.stim, h.cfg]

theorem State.Reaches.running (h : s.Reaches k t) (hs : s.Steady n) (hk : k < n) : t.Running := by
  obtain ⟨rst, cfgIn⟩ := hs.undisturbed k hk
  rw [← h.input] at rst
  rw [← h.cfgIn, ← h.cfg] at cfgIn
  exact ⟨⟨by rw [h.plat]; exact hs.inRange, fun _ => cfgIn⟩, rst, by rw [h.cfg, h.plat]; exact hs.valid, h.ok⟩

theorem State.Reaches.abort_eq_false (h : s.Reaches k t) (ha : s.NoAbort n) (hk : k < n) : t.input.abort = false := by
  rw [h.input]
  exact ha k hk

theorem State.Reaches.sinkReady (h : s.Reaches k t) (hr : s.SinkReady n) (hk : k < n) : t.input.sinkReady = true := by
  rw [h.input]
  exact hr k hk

theorem State.Reaches.succ (h : s.Reaches k t) (hr : t.Running) : s.Reaches (k + 1) (tickBoundary (afterTick t)) := by
  have step := step_running t hr
  refine ⟨run_snoc h.run step, by simp [h.plat], by simp [h.cfg], wf_of_step step, ?_, ?_⟩
  · rw [tickBoundary_stim, afterTick_stim, h.stim]
    exact stimAfter_add k 1 s.stim
  · rw [tickBoundary_tick, afterTick_tick, h.tick, Nat.add_assoc]

/-- What holds after `m` ticks and passes from each tick to the next holds after `n`. -/
theorem State.Steady.run_induction (hs : s.Steady n) {m : Nat} {u : State} {P : Nat → State → Prop} (hmn : m ≤ n)
    (reached : s.Reaches m u) (start : P m u)
    (next : ∀ k t, m ≤ k → k < n → s.Reaches k t → t.Running → P k t → P (k + 1) (tickBoundary (afterTick t))) :
    ∃ t, s.Reaches n t ∧ P n t := by
  suffices h : ∀ k, m ≤ k → k ≤ n → ∃ t, s.Reaches k t ∧ P k t from h n hmn le_rfl
  intro k hk
  induction k, hk using Nat.le_induction with
  | base => exact fun _ => ⟨u, reached, start⟩
  | succ k hk ih =>
    intro below
    obtain ⟨t, ht, hP⟩ := ih (Nat.le_of_succ_le below)
    have running := ht.running hs below
    exact ⟨_, ht.succ running, next k t hk below ht running hP⟩

end

theorem State.Steady.running {n : Nat} {s : State} (hs : s.Steady n) (pos : 0 < n) : s.Running :=
  (State.Reaches.refl hs.ok).running hs pos

/-! ### A delay counts down, 40_bit_sampler.md R133, R137 -/

/-- In SYNC mode a delay with more than one tick left is a wait of the SSR: nothing but the count changes. -/
theorem ssr_wait_tick {s : State} (hm : s.cfg.mode = .sync) (hw : WF s.cfg s.now) (busy : s.now.bsBusy = true)
    (more : s.now.bsRem ≠ 1#16) (abort : s.input.abort = false) :
    ssrView (afterTick s).nxt = { ssrView s.now with rem := s.now.bsRem - 1#16 } := by
  have left : s.now.ssrPhase ≠ phIdle := by simpa [busy] using sync_busy hm hw
  simp [sync_tick hm hw, ssrNext, abort, left, more]

/-- In ASYNC mode a delay with more than one tick left is a wait of the AFR. -/
theorem afr_wait_tick {s : State} (hm : s.cfg.mode = .async) (hw : WF s.cfg s.now) (busy : s.now.bsBusy = true)
    (more : s.now.bsRem ≠ 1#16) (abort : s.input.abort = false) :
    afrView (afterTick s).nxt = { afrView s.now with rem := s.now.bsRem - 1#16 } := by
  have sampling : s.now.afrSampling = true := (hw.busy.2 hm).symm.trans busy
  simp [async_tick hm hw, afrNext, abort, sampling, more]

/-- A delay with more than one tick left counts one down and keeps its request, in either mode. -/
theorem delay_wait_tick {s : State} (hw : WF s.cfg s.now) (busy : s.now.bsBusy = true) (more : s.now.bsRem ≠ 1#16)
    (abort : s.input.abort = false) :
    (afterTick s).nxt.bsBusy = true ∧ (afterTick s).nxt.bsRem = s.now.bsRem - 1#16 ∧
      (afterTick s).nxt.bsKind = s.now.bsKind ∧ (afterTick s).nxt.bsFb = s.now.bsFb := by
  cases hm : s.cfg.mode with
  | sync =>
    have view := ssr_wait_tick hm hw busy more abort
    simp only [ssrView, SsrView.mk.injEq] at view
    obtain ⟨-, -, -, nextBusy, kind, rem, fb⟩ := view
    exact ⟨nextBusy.trans busy, rem, kind, fb⟩
  | async =>
    have view := afr_wait_tick hm hw busy more abort
    simp only [afrView, AfrView.mk.injEq] at view
    obtain ⟨-, -, -, -, nextBusy, kind, rem, fb⟩ := view
    exact ⟨nextBusy.trans busy, rem, kind, fb⟩

theorem toNat_sub_one_add_one {x : BitVec 16} (pos : 1 ≤ x.toNat) : (x - 1#16).toNat + 1 = x.toNat := by
  bv_omega

theorem ne_one_of_two_le {x : BitVec 16} (h : 2 ≤ x.toNat) : x ≠ 1#16 := by
  rintro rfl
  exact absurd h (by decide)

/-- `t` holds the delay that runs in `s`, `k` ticks later. -/
def DelayAt (s : State) (k : Nat) (t : State) : Prop :=
  t.now.bsBusy = true ∧ t.now.bsRem.toNat + k = s.now.bsRem.toNat ∧ t.now.bsKind = s.now.bsKind ∧
    t.now.bsFb = s.now.bsFb

/-- Settles O46: every tick before the last of the delay counts one down. -/
theorem delayCountsDownToItsFire : Obligations.DelayCountsDownToItsFire := by
  intro n s inRange valid hw busy short undisturbed noAbort
  have steady : s.Steady n := ⟨inRange, valid, hw, undisturbed⟩
  suffices reaches : ∃ t, s.Reaches n t ∧ DelayAt s n t by
    obtain ⟨t, reached, delay⟩ := reaches
    exact ⟨t, reached.run, delay⟩
  refine steady.run_induction (Nat.zero_le n) (.refl hw) ⟨busy, rfl, rfl, rfl⟩ ?_
  rintro k t - below reached - ⟨busy, count, kind, fb⟩
  have more : 2 ≤ t.now.bsRem.toNat := by omega
  have abort := reached.abort_eq_false noAbort below
  obtain ⟨nextBusy, rem, nextKind, nextFb⟩ := delay_wait_tick reached.ok busy (ne_one_of_two_le more) abort
  have counted := toNat_sub_one_add_one (Nat.le_of_succ_le more)
  exact ⟨nextBusy, by rw [tickBoundary_now, rem]; omega, nextKind.trans kind, nextFb.trans fb⟩

/-! ### The poll timer counts modulo its period, 41_sync_reader.md R151, R152 -/

/-- The poll period of a valid record in SYNC mode, 44_top_control.md R250 condition 4. -/
theorem one_le_pollPeriod {p : Platform} {c : Cfg} (hp : p.InRange) (hv : c.Valid p) (hm : c.mode = .sync) :
    1 ≤ c.pollPeriod.toNat := by
  obtain ⟨-, -, -, -, poll, -⟩ := (valid_iff _ _).1 hv
  exact hp.1.trans (poll hm).1

/-- One tick of a count below the period is one step modulo the period. -/
theorem pollCnt_tick_mod {s : State} (hr : s.Running) (hm : s.cfg.mode = .sync) :
    (afterTick s).nxt.pollCnt.toNat = (s.now.pollCnt.toNat + 1) % s.cfg.pollPeriod.toNat := by
  obtain ⟨⟨inRange, -⟩, -, valid, hw⟩ := hr
  have period := one_le_pollPeriod inRange valid hm
  obtain ⟨-, below⟩ := hw.mode.1 hm
  rw [tick_pollCnt]
  by_cases last : s.now.pollCnt = s.cfg.pollPeriod - 1#32
  · have wraps : s.now.pollCnt.toNat + 1 = s.cfg.pollPeriod.toNat := by bv_omega
    rw [if_pos (.inr last), wraps, Nat.mod_self]
    rfl
  · have more : s.now.pollCnt.toNat + 1 < s.cfg.pollPeriod.toNat := by bv_omega
    rw [if_neg (by simp [hm, last]), Nat.mod_eq_of_lt more]
    bv_omega

/-- The counter of `t` is that of `s`, `k` steps modulo the period later. -/
def PollCntAt (s : State) (k : Nat) (t : State) : Prop :=
  t.now.pollCnt.toNat = (s.now.pollCnt.toNat + k) % s.cfg.pollPeriod.toNat

/-- Settles O47: a step of the counter is a step modulo the period, and steps modulo the period add up. -/
theorem pollCounterCountsModuloThePeriod : Obligations.PollCounterCountsModuloThePeriod := by
  intro n s inRange valid hw hm undisturbed
  have steady : s.Steady n := ⟨inRange, valid, hw, undisturbed⟩
  have period := one_le_pollPeriod inRange valid hm
  obtain ⟨-, below⟩ := hw.mode.1 hm
  suffices reaches : ∃ t, s.Reaches n t ∧ PollCntAt s n t by
    obtain ⟨t, reached, count⟩ := reaches
    exact ⟨t, reached.run, count⟩
  refine steady.run_induction (Nat.zero_le n) (.refl hw) (Nat.mod_eq_of_lt (by omega)).symm ?_
  rintro k t - - reached running count
  have mode : t.cfg.mode = .sync := by rw [reached.cfg, hm]
  rw [PollCntAt, tickBoundary_now, pollCnt_tick_mod running mode, reached.cfg, count, Nat.mod_add_mod, Nat.add_assoc]

end Sys2Proof.Machine
end

section
/-! PROOFS. The synchronous frame (41_sync_reader.md R163): where the SSR stands `k` ticks after a strobe, tick by tick, and
from that the wires, the length and the word of the frame. -/

namespace Sys2Proof.Machine

/-! ### The delays, uncut, 30_encoding.md R107 -/

theorem toNat_ofNat_mul_tu {p : Platform} (hp : p.InRange) {k : Nat} (hk : k ≤ 12) :
    (BitVec.ofNat 16 (k * p.tu)).toNat = k * p.tu := by
  obtain ⟨-, -, tuLe⟩ := hp
  have fits : k * p.tu ≤ 12 * 5461 := Nat.mul_le_mul hk tuLe
  rw [BitVec.toNat_ofNat, Nat.mod_eq_of_lt (by omega)]

theorem toNat_tLh {p : Platform} (hp : p.InRange) : (tLh p).toNat = 12 * p.tu := toNat_ofNat_mul_tu hp (by decide)
theorem toNat_tLs {p : Platform} (hp : p.InRange) : (tLs p).toNat = 6 * p.tu := toNat_ofNat_mul_tu hp (by decide)
theorem toNat_tCh {p : Platform} (hp : p.InRange) : (tCh p).toNat = 6 * p.tu := toNat_ofNat_mul_tu hp (by decide)
theorem toNat_tCl {p : Platform} (hp : p.InRange) : (tCl p).toNat = 6 * p.tu := toNat_ofNat_mul_tu hp (by decide)

/-! ### The bits of a word that is being read -/

/-- `acc` holds the first `n` of `bits`, and no other bit. -/
def Captured (bits : Nat → Bool) (n : Nat) (acc : ButtonWord) : Prop :=
  ∀ i < 16, acc.getLsbD i = (decide (i < n) && bits i)

theorem captured_zero (bits : Nat → Bool) : Captured bits 0 0#16 := by
  intro i _
  simp

/-- A sample writes the next bit (41_sync_reader.md R160, 42_async_reader.md R189). -/
theorem Captured.orBit {bits : Nat → Bool} {n : Nat} {acc : ButtonWord} (h : Captured bits n acc) (hn : n < 16) :
    Captured bits (n + 1) (orBit acc (bits n) n) := by
  intro i hi
  rw [orBit_getLsbD _ _ _ _ hn, h i hi]
  rcases Nat.lt_trichotomy i n with below | rfl | above
  · simp [below, below.ne, Nat.lt_succ_of_lt below]
  · simp
  · simp [above.not_gt, above.ne', Nat.not_lt.2 (Nat.succ_le_of_lt above)]

/-! ### The end of a phase, 41_sync_reader.md R159 to R162 -/

section
variable {s : State}

theorem ssrNext_of_strobe (abort : s.input.abort = false) (idle : s.now.ssrPhase = phIdle) (strobe : strobes s = true) :
    ssrNext s = ⟨phLatch, 0#5, 0#16, true, .delay, tLh s.plat, false⟩ := by
  simp [ssrNext, abort, idle, strobe]

theorem ssrNext_of_latchEnd (abort : s.input.abort = false) (phase : s.now.ssrPhase = phLatch)
    (last : s.now.bsRem = 1#16) :
    ssrNext s = ⟨phSettle, s.now.ssrBit, s.now.ssrAcc, true, .sample, tLs s.plat, true⟩ := by
  simp [ssrNext, abort, last, phase, phIdle, phLatch]

theorem ssrNext_of_sample (abort : s.input.abort = false)
    (phase : s.now.ssrPhase = phSettle ∨ s.now.ssrPhase = phClkLow) (last : s.now.bsRem = 1#16) :
    ssrNext s =
      ⟨phClkHigh, s.now.ssrBit + 1#5,
        orBit s.now.ssrAcc (!(capture s.input.dataIn s.input.dataFault true)) s.now.ssrBit.toNat, true, .delay,
        tCh s.plat, false⟩ := by
  rcases phase with h | h <;>
    simp [ssrNext, abort, last, h, phIdle, phLatch, phSettle, phClkHigh, phClkLow, phClkTail]

theorem ssrNext_of_clkEnd (abort : s.input.abort = false) (phase : s.now.ssrPhase = phClkHigh)
    (last : s.now.bsRem = 1#16) (more : s.now.ssrBit.toNat ≠ s.cfg.w) :
    ssrNext s = ⟨phClkLow, s.now.ssrBit, s.now.ssrAcc, true, .sample, tCl s.plat, true⟩ := by
  simp [ssrNext, abort, last, phase, more, phIdle, phLatch, phClkHigh]

theorem ssrNext_of_lastClkEnd (abort : s.input.abort = false) (phase : s.now.ssrPhase = phClkHigh)
    (last : s.now.bsRem = 1#16) (full : s.now.ssrBit.toNat = s.cfg.w) :
    ssrNext s = ⟨phClkTail, s.now.ssrBit, s.now.ssrAcc, true, .delay, tCl s.plat, false⟩ := by
  simp [ssrNext, abort, last, phase, full, phIdle, phLatch, phClkHigh]

theorem ssrNext_of_finish (abort : s.input.abort = false) (phase : s.now.ssrPhase = phClkTail)
    (last : s.now.bsRem = 1#16) :
    ssrNext s = { ssrView s.now with phase := phIdle, bit := 0#5, acc := 0#16, busy := false } := by
  simp [ssrNext, abort, last, phase, phIdle, phLatch, phClkHigh, phClkTail]

/-- What the SSR's tick leaves, register by register. -/
theorem ssr_regs_of_view {r : Regs} {v : SsrView} (h : ssrView r = v) :
    r.ssrPhase = v.phase ∧ r.ssrBit = v.bit ∧ r.ssrAcc = v.acc ∧ r.bsRem = v.rem := by
  subst h
  exact ⟨rfl, rfl, rfl, rfl⟩

end

/-! ### Where the SSR stands, 41_sync_reader.md R163 -/

/-- The registers `k` ticks after the strobe that starts a synchronous frame: `tu` ticks per time-unit, `w` bits to read,
`bits` on the wire. The remaining delay says when the phase ends. -/
inductive SyncFrameAt (tu w : Nat) (bits : Nat → Bool) (k : Nat) (r : Regs) : Prop
  | latch (phase : r.ssrPhase = phLatch) (ends : k + r.bsRem.toNat = 12 * tu + 1) (count : r.ssrBit.toNat = 0)
      (captured : Captured bits 0 r.ssrAcc)
  | settle (phase : r.ssrPhase = phSettle) (began : 12 * tu < k) (ends : k + r.bsRem.toNat = 18 * tu + 1)
      (count : r.ssrBit.toNat = 0) (captured : Captured bits 0 r.ssrAcc)
  | clkHigh (i : Nat) (phase : r.ssrPhase = phClkHigh) (pulse : i < w) (began : 18 * tu + 12 * (tu * i) < k)
      (ends : k + r.bsRem.toNat = 24 * tu + 12 * (tu * i) + 1) (count : r.ssrBit.toNat = i + 1)
      (captured : Captured bits (i + 1) r.ssrAcc)
  | clkLow (i : Nat) (phase : r.ssrPhase = phClkLow) (more : i + 1 < w) (began : 24 * tu + 12 * (tu * i) < k)
      (ends : k + r.bsRem.toNat = 30 * tu + 12 * (tu * i) + 1) (count : r.ssrBit.toNat = i + 1)
      (captured : Captured bits (i + 1) r.ssrAcc)
  | clkTail (i : Nat) (phase : r.ssrPhase = phClkTail) (last : i + 1 = w) (began : 24 * tu + 12 * (tu * i) < k)
      (ends : k + r.bsRem.toNat = 30 * tu + 12 * (tu * i) + 1) (captured : Captured bits (i + 1) r.ssrAcc)
  | finished (phase : r.ssrPhase = phIdle) (after : k = 18 * tu + 12 * (tu * w) + 1)

/-- Every later pulse begins at least a period of `12*TU` ticks after. -/
theorem period_le {tu i j : Nat} (h : i < j) : 12 * (tu * i) + 12 * tu ≤ 12 * (tu * j) := by
  have step : tu * (i + 1) ≤ tu * j := Nat.mul_le_mul_left tu h
  rw [Nat.mul_succ] at step
  omega

/-- What the wire gives a synchronous frame that is started in `s`: bit `i` in tick `18*TU + 12*TU*i`, low active, and 0 for
a faulted read (41_sync_reader.md R154, 20_memory.md R73). -/
def syncBits (s : State) (i : Nat) : Bool :=
  !(s.envAfter (18 * s.plat.tu + 12 * (s.plat.tu * i))).input.dataFault &&
    !(s.envAfter (18 * s.plat.tu + 12 * (s.plat.tu * i))).input.dataIn

theorem syncBits_of_reaches {s t : State} {k i : Nat} (h : s.Reaches k t)
    (hk : k = 18 * s.plat.tu + 12 * (s.plat.tu * i)) :
    (!(capture t.input.dataIn t.input.dataFault true)) = syncBits s i := by
  rw [syncBits, ← hk, ← h.input, capture_eq]
  cases t.input.dataFault <;> simp

/-- While a frame is in flight its delay runs (10_state.md R47, conditions 3 and 4). -/
theorem ssr_delay_runs {s : State} (hm : s.cfg.mode = .sync) (hw : WF s.cfg s.now) (left : s.now.ssrPhase ≠ phIdle) :
    s.now.bsBusy = true ∧ 1 ≤ s.now.bsRem.toNat := by
  have busy : s.now.bsBusy = true := by rw [sync_busy hm hw]; simpa using left
  exact ⟨busy, hw.rem busy⟩

/-- A phase that waits stays where it is in the frame, one tick on. -/
theorem SyncFrameAt.wait {tu w k : Nat} {bits : Nat → Bool} {r r' : Regs} (h : SyncFrameAt tu w bits k r)
    (left : r.ssrPhase ≠ phIdle) (phase' : r'.ssrPhase = r.ssrPhase) (bit' : r'.ssrBit = r.ssrBit)
    (acc' : r'.ssrAcc = r.ssrAcc) (counted : r'.bsRem.toNat + 1 = r.bsRem.toNat) :
    SyncFrameAt tu w bits (k + 1) r' := by
  cases h with
  | latch phase ends count captured =>
    exact .latch (phase'.trans phase) (by omega) (by rw [bit', count]) (by rwa [acc'])
  | settle phase began ends count captured =>
    exact .settle (phase'.trans phase) (by omega) (by omega) (by rw [bit', count]) (by rwa [acc'])
  | clkHigh i phase pulse began ends count captured =>
    exact .clkHigh i (phase'.trans phase) pulse (by omega) (by omega) (by rw [bit', count]) (by rwa [acc'])
  | clkLow i phase more began ends count captured =>
    exact .clkLow i (phase'.trans phase) more (by omega) (by omega) (by rw [bit', count]) (by rwa [acc'])
  | clkTail i phase last began ends captured =>
    exact .clkTail i (phase'.trans phase) last (by omega) (by omega) (by rwa [acc'])
  | finished phase after => exact absurd phase left

/-- The sample of bit `n`, in its tick, begins clock pulse `n` with that bit captured. -/
theorem SyncFrameAt.sample {s t : State} {k n : Nat} (reached : s.Reaches k t) (hr : t.Running)
    (hm : t.cfg.mode = .sync) (abort : t.input.abort = false)
    (phase : t.now.ssrPhase = phSettle ∨ t.now.ssrPhase = phClkLow) (last : t.now.bsRem = 1#16)
    (tick : k = 18 * s.plat.tu + 12 * (s.plat.tu * n)) (more : n < s.cfg.w) (count : t.now.ssrBit.toNat = n)
    (captured : Captured (syncBits s) n t.now.ssrAcc) :
    SyncFrameAt s.plat.tu s.cfg.w (syncBits s) (k + 1) (afterTick t).nxt := by
  obtain ⟨⟨inRange, -⟩, -, valid, hw⟩ := hr
  have view := (sync_tick hm hw).trans (ssrNext_of_sample abort phase last)
  obtain ⟨phase', bit', acc', rem'⟩ := ssr_regs_of_view view
  obtain ⟨-, w16⟩ := width_bounds valid
  rw [reached.cfg] at w16
  have delay := toNat_tCh inRange
  rw [reached.plat] at delay
  simp only [reached.plat] at rem'
  refine .clkHigh n phase' more (by omega) (by rw [rem']; omega) ?_ ?_
  · rw [bit', toNat_bit_succ (w := s.cfg.w) (by omega) w16, count]
  · rw [acc', count, syncBits_of_reaches reached tick]
    exact captured.orBit (by omega)

/-- One tick of a synchronous frame that is not over. -/
theorem SyncFrameAt.next {s t : State} {k : Nat} (reached : s.Reaches k t) (hr : t.Running) (hm : t.cfg.mode = .sync)
    (abort : t.input.abort = false) (inFlight : k ≤ 18 * s.plat.tu + 12 * (s.plat.tu * s.cfg.w))
    (h : SyncFrameAt s.plat.tu s.cfg.w (syncBits s) k t.now) :
    SyncFrameAt s.plat.tu s.cfg.w (syncBits s) (k + 1) (afterTick t).nxt := by
  have ⟨⟨inRange, _⟩, _, valid, hw⟩ := hr
  have left : t.now.ssrPhase ≠ phIdle := by
    intro idle
    cases h
    case finished => omega
    all_goals simp_all [phIdle, phLatch, phSettle, phClkHigh, phClkLow, phClkTail]
  obtain ⟨busy, pos⟩ := ssr_delay_runs hm hw left
  by_cases last : t.now.bsRem = 1#16
  case neg =>
    have view := ssr_wait_tick hm hw busy last abort
    obtain ⟨phase', bit', acc', rem'⟩ := ssr_regs_of_view view
    exact h.wait left phase' bit' acc' (by rw [rem']; exact toNat_sub_one_add_one pos)
  case pos =>
    have one : t.now.bsRem.toNat = 1 := by rw [last]; rfl
    have ls := toNat_tLs inRange
    have cl := toNat_tCl inRange
    rw [reached.plat] at ls cl
    cases h with
    | latch phase ends count captured =>
      have view := (sync_tick hm hw).trans (ssrNext_of_latchEnd abort phase last)
      obtain ⟨phase', bit', acc', rem'⟩ := ssr_regs_of_view view
      simp only [reached.plat] at rem'
      exact .settle phase' (by omega) (by rw [rem']; omega) (by rw [bit', count]) (by rwa [acc'])
    | settle phase began ends count captured =>
      obtain ⟨w11, -⟩ := width_bounds valid
      rw [reached.cfg] at w11
      exact .sample reached hr hm abort (.inl phase) last (n := 0) (by omega) (by omega) count captured
    | clkHigh i phase pulse began ends count captured =>
      by_cases full : i + 1 = s.cfg.w
      · have view := (sync_tick hm hw).trans (ssrNext_of_lastClkEnd abort phase last (by rw [count, full, reached.cfg]))
        obtain ⟨phase', bit', acc', rem'⟩ := ssr_regs_of_view view
        simp only [reached.plat] at rem'
        exact .clkTail i phase' full (by omega) (by rw [rem']; omega) (by rwa [acc'])
      · have view := (sync_tick hm hw).trans (ssrNext_of_clkEnd abort phase last (by rw [count, reached.cfg]; exact full))
        obtain ⟨phase', bit', acc', rem'⟩ := ssr_regs_of_view view
        simp only [reached.plat] at rem'
        exact .clkLow i phase' (by omega) (by omega) (by rw [rem']; omega) (by rw [bit', count]) (by rwa [acc'])
    | clkLow i phase more began ends count captured =>
      have next : s.plat.tu * (i + 1) = s.plat.tu * i + s.plat.tu := Nat.mul_succ _ _
      exact .sample reached hr hm abort (.inr phase) last (n := i + 1) (by omega) more count captured
    | clkTail i phase final began ends captured =>
      have view := (sync_tick hm hw).trans (ssrNext_of_finish abort phase last)
      obtain ⟨phase', -⟩ := ssr_regs_of_view view
      have next : s.plat.tu * (i + 1) = s.plat.tu * i + s.plat.tu := Nat.mul_succ _ _
      exact .finished phase' (by rw [← final]; omega)
    | finished phase after => exact absurd phase left

/-- The tick of the strobe begins the frame. -/
theorem syncFrameAt_one {s : State} (hr : s.Running) (hm : s.cfg.mode = .sync) (abort : s.input.abort = false)
    (idle : s.now.ssrPhase = phIdle) (strobe : s.now.pollCnt = s.cfg.pollPeriod - 1#32) :
    SyncFrameAt s.plat.tu s.cfg.w (syncBits s) 1 (afterTick s).nxt := by
  obtain ⟨⟨inRange, -⟩, -, -, hw⟩ := hr
  have view := (sync_tick hm hw).trans (ssrNext_of_strobe abort idle (by simp [strobes, hm, strobe]))
  obtain ⟨phase', bit', acc', rem'⟩ := ssr_regs_of_view view
  have delay := toNat_tLh inRange
  simp only at rem'
  exact .latch phase' (by rw [rem']; omega) (by rw [bit']; rfl) (by rw [acc']; exact captured_zero _)

/-- `k` ticks after the strobe the machine is where the frame has it. -/
theorem syncFrame_reaches {s : State} {k : Nat} (hs : s.Steady k) (hm : s.cfg.mode = .sync) (noAbort : s.NoAbort k)
    (idle : s.now.ssrPhase = phIdle) (strobe : s.now.pollCnt = s.cfg.pollPeriod - 1#32) (pos : 1 ≤ k)
    (notAfter : k ≤ 18 * s.plat.tu + 12 * (s.plat.tu * s.cfg.w) + 1) :
    ∃ t, s.Reaches k t ∧ SyncFrameAt s.plat.tu s.cfg.w (syncBits s) k t.now := by
  have running := hs.running pos
  have first := syncFrameAt_one running hm (noAbort 0 pos) idle strobe
  refine hs.run_induction (P := fun k t => SyncFrameAt s.plat.tu s.cfg.w (syncBits s) k t.now) pos
    ((State.Reaches.refl hs.ok).succ running) first ?_
  intro j t _ below reached running frame
  exact frame.next reached running (by rw [reached.cfg, hm]) (reached.abort_eq_false noAbort below) (by omega)

/-! ### The wires of the frame, 41_sync_reader.md R163, R164 -/

/-- CLOCK in the tick that stands `j` ticks into period `i` of the clock. -/
theorem clock_mod {tu k i j : Nat} (hk : k = 18 * tu + 12 * (tu * i) + 1 + j) (hj : j < 12 * tu) :
    (k - 18 * tu - 1) % (12 * tu) = j := by
  have offset : k - 18 * tu - 1 = 12 * tu * i + j := by
    rw [Nat.mul_assoc]
    omega
  rw [offset, Nat.mul_add_mod, Nat.mod_eq_of_lt hj]

/-- The phase that each tick of the frame stands in. -/
theorem SyncFrameAt.wires {tu w k : Nat} {bits : Nat → Bool} {r : Regs} (h : SyncFrameAt tu w bits k r)
    (tuPos : 1 ≤ tu) (rem : r.ssrPhase ≠ phIdle → 1 ≤ r.bsRem.toNat) :
    (r.ssrPhase = phLatch ↔ k ≤ 12 * tu) ∧
    (r.ssrPhase = phClkHigh ↔ 18 * tu < k ∧ k ≤ 18 * tu + 12 * (tu * w) ∧ (k - 18 * tu - 1) % (12 * tu) < 6 * tu) ∧
    (r.ssrPhase = phIdle ↔ k = 18 * tu + 12 * (tu * w) + 1) := by
  cases h with
  | latch phase ends count captured =>
    have pos := rem (by rw [phase]; decide)
    rw [phase]
    refine ⟨iff_of_true rfl (by omega), iff_of_false (by decide) (by omega), iff_of_false (by decide) (by omega)⟩
  | settle phase began ends count captured =>
    have pos := rem (by rw [phase]; decide)
    rw [phase]
    refine ⟨iff_of_false (by decide) (by omega), iff_of_false (by decide) (by omega), iff_of_false (by decide) (by omega)⟩
  | clkHigh i phase pulse began ends count captured =>
    have pos := rem (by rw [phase]; decide)
    have fits := period_le (tu := tu) pulse
    have mod := clock_mod (tu := tu) (k := k) (i := i) (j := k - (18 * tu + 12 * (tu * i) + 1)) (by omega) (by omega)
    rw [phase, mod]
    refine ⟨iff_of_false (by decide) (by omega), iff_of_true rfl (by omega), iff_of_false (by decide) (by omega)⟩
  | clkLow i phase more began ends count captured =>
    have pos := rem (by rw [phase]; decide)
    have fits := period_le (tu := tu) (Nat.lt_of_succ_lt more)
    have mod := clock_mod (tu := tu) (k := k) (i := i) (j := k - (18 * tu + 12 * (tu * i) + 1)) (by omega) (by omega)
    rw [phase, mod]
    refine ⟨iff_of_false (by decide) (by omega), iff_of_false (by decide) (by omega), iff_of_false (by decide) (by omega)⟩
  | clkTail i phase last began ends captured =>
    have pos := rem (by rw [phase]; decide)
    have fits := period_le (tu := tu) (last ▸ Nat.lt_succ_self i : i < w)
    have mod := clock_mod (tu := tu) (k := k) (i := i) (j := k - (18 * tu + 12 * (tu * i) + 1)) (by omega) (by omega)
    rw [phase, mod]
    refine ⟨iff_of_false (by decide) (by omega), iff_of_false (by decide) (by omega), iff_of_false (by decide) (by omega)⟩
  | finished phase after =>
    rw [phase]
    refine ⟨iff_of_false (by decide) (by omega), iff_of_false (by decide) (by omega), iff_of_true rfl after⟩

/-- Settles O48: each tick of the frame stands in the phase that its number gives, and the wires follow the phase. -/
theorem syncFrameTimeline : Obligations.SyncFrameTimeline := by
  rintro s k tu rfl inRange valid hw hm idle strobe pos notAfter undisturbed noAbort
  rw [Nat.mul_assoc] at *
  obtain ⟨t, reached, frame⟩ := syncFrame_reaches ⟨inRange, valid, hw, undisturbed⟩ hm noAbort idle strobe pos notAfter
  have mode : t.cfg.mode = .sync := by rw [reached.cfg, hm]
  have rem (left : t.now.ssrPhase ≠ phIdle) : 1 ≤ t.now.bsRem.toNat := (ssr_delay_runs mode reached.ok left).2
  obtain ⟨latch, clock, finished⟩ := frame.wires inRange.2.1 rem
  refine ⟨t, reached.run, ?_, ?_, finished⟩
  · rw [portLevels_latchOut, decide_eq_decide]
    exact latch
  · rw [portLevels_clockOut, decide_eq_decide]
    exact clock

/-! ### The word of the frame, 41_sync_reader.md R162, R163 -/

/-- The last tick of the frame completes the word that the wire gave. -/
theorem SyncFrameAt.completes {tu w k : Nat} {bits : Nat → Bool} {t : State}
    (h : SyncFrameAt tu w bits k t.now) (hk : k = 18 * tu + 12 * (tu * w)) (wPos : 1 ≤ w)
    (busy : t.now.ssrPhase ≠ phIdle → t.now.bsBusy = true ∧ 1 ≤ t.now.bsRem.toNat) (tuPos : 1 ≤ tu)
    (abort : t.input.abort = false) : completedWord t = some t.now.ssrAcc ∧ Captured bits w t.now.ssrAcc := by
  have widthPeriods := period_le (tu := tu) wPos
  cases h with
  | clkTail i phase last began ends captured =>
    obtain ⟨running, pos⟩ := busy (by rw [phase]; decide)
    have next : tu * (i + 1) = tu * i + tu := Nat.mul_succ _ _
    rw [← last] at hk
    have one : t.now.bsRem = 1#16 := BitVec.eq_of_toNat_eq (show _ = 1 by omega)
    exact ⟨by rw [completedWord, if_pos ⟨running, one, abort⟩, if_pos phase], last ▸ captured⟩
  | latch phase ends =>
    obtain ⟨-, pos⟩ := busy (by rw [phase]; decide)
    omega
  | settle phase began ends =>
    obtain ⟨-, pos⟩ := busy (by rw [phase]; decide)
    omega
  | clkHigh i phase pulse began ends =>
    obtain ⟨-, pos⟩ := busy (by rw [phase]; decide)
    have fits := period_le (tu := tu) pulse
    omega
  | clkLow i phase more began ends =>
    obtain ⟨-, pos⟩ := busy (by rw [phase]; decide)
    have fits := period_le (tu := tu) more
    have next : tu * (i + 1) = tu * i + tu := Nat.mul_succ _ _
    omega
  | finished phase after => omega

/-- Settles O49: the frame stands in its last tick with every bit captured from the wire. -/
theorem syncWordIsTheSampledWire : Obligations.SyncWordIsTheSampledWire := by
  rintro s tu f rfl rfl inRange valid hw hm idle strobe undisturbed noAbort
  obtain ⟨w11, -⟩ := width_bounds valid
  simp only [Nat.mul_assoc] at *
  have pos : 1 ≤ 18 * s.plat.tu + 12 * (s.plat.tu * s.cfg.w) := by
    have := inRange.2.1
    omega
  have steady : s.Steady _ := ⟨inRange, valid, hw, undisturbed_mono (Nat.le_succ _) undisturbed⟩
  obtain ⟨t, reached, frame⟩ :=
    syncFrame_reaches steady hm (noAbort_mono (Nat.le_succ _) noAbort) idle strobe pos (Nat.le_succ _)
  have mode : t.cfg.mode = .sync := by rw [reached.cfg, hm]
  obtain ⟨word, captured⟩ := frame.completes rfl (by omega) (ssr_delay_runs mode reached.ok) inRange.2.1
    (reached.abort_eq_false noAbort (Nat.lt_succ_self _))
  refine ⟨t, _, reached.run, word, fun i hi => ?_⟩
  rw [captured i hi, syncBits, Bool.and_assoc]

end Sys2Proof.Machine
end

section
/-! PROOFS. The asynchronous frame (42_async_reader.md R192): where the AFR stands `k` ticks after a start edge, and from that
the length and the word of the frame. -/

namespace Sys2Proof.Machine

/-! ### The ticks of the AFR, 42_async_reader.md R186 to R190 -/

theorem toNat_half (c : Cfg) : (half c).toNat = c.bitPeriod.toNat / 2 := by
  rw [half, BitVec.toNat_udiv]
  rfl

/-- The start edge of the configured direction is seen (42_async_reader.md R180). -/
theorem seesEdge_iff {s : State} (hm : s.cfg.mode = .async) :
    seesEdge s = true ↔ s.input.dataFault = false ∧ s.now.edgePrev = decide (s.cfg.startEdge = .falling) ∧
      s.input.dataIn = decide (s.cfg.startEdge = .rising) := by
  unfold seesEdge startEdgeSeen
  rw [hm]
  cases s.input.dataFault <;> cases s.cfg.startEdge <;> simp

section
variable {s : State}

theorem afrNext_of_edge (abort : s.input.abort = false) (idle : s.now.afrSampling = false) (edge : seesEdge s = true) :
    afrNext s = { afrView s.now with
      sampling := true, bit := 0#5, acc := 0#16, busy := true, kind := .sample, rem := half s.cfg, fb := false } := by
  simp [afrNext, abort, idle, edge]

theorem afrNext_of_sample (abort : s.input.abort = false) (sampling : s.now.afrSampling = true)
    (last : s.now.bsRem = 1#16) (more : s.now.afrBit.toNat ≠ s.cfg.w - 1) :
    afrNext s = { afrView s.now with
      bit := s.now.afrBit + 1#5
      acc := orBit s.now.afrAcc (capture s.input.dataIn s.input.dataFault false) s.now.afrBit.toNat
      rem := s.cfg.bitPeriod } := by
  simp [afrNext, abort, sampling, last, more]

theorem afrNext_of_finish (abort : s.input.abort = false) (sampling : s.now.afrSampling = true)
    (last : s.now.bsRem = 1#16) (full : s.now.afrBit.toNat = s.cfg.w - 1) :
    afrNext s = { afrView s.now with
      sampling := false, bit := 0#5, acc := 0#16, busy := false
      sync := if s.cfg.handshake then !s.now.syncOut else s.now.syncOut } := by
  simp [afrNext, abort, sampling, last, full]

end

/-- What the AFR's tick leaves, register by register. -/
theorem afr_regs_of_view {r : Regs} {v : AfrView} (h : afrView r = v) :
    r.afrSampling = v.sampling ∧ r.afrBit = v.bit ∧ r.afrAcc = v.acc ∧ r.bsRem = v.rem := by
  subst h
  exact ⟨rfl, rfl, rfl, rfl⟩

/-- While a frame is in flight its delay runs (10_state.md R47, conditions 3 and 4). -/
theorem afr_delay_runs {s : State} (hm : s.cfg.mode = .async) (hw : WF s.cfg s.now) (sampling : s.now.afrSampling = true) :
    s.now.bsBusy = true ∧ 1 ≤ s.now.bsRem.toNat := by
  have busy := (hw.busy.2 hm).trans sampling
  exact ⟨busy, hw.rem busy⟩

/-! ### Where the AFR stands, 42_async_reader.md R192 -/

/-- The registers `k` ticks after the edge that starts an asynchronous frame: `b` ticks per bit, `w` bits to read, `bits` on
the wire. The remaining delay says when the next bit is sampled. -/
inductive AsyncFrameAt (b w : Nat) (bits : Nat → Bool) (k : Nat) (r : Regs) : Prop
  | reading (n : Nat) (sampling : r.afrSampling = true) (more : n < w) (ends : k + r.bsRem.toNat = b / 2 + n * b + 1)
      (count : r.afrBit.toNat = n) (captured : Captured bits n r.afrAcc)
  | finished (idle : r.afrSampling = false) (after : k = b / 2 + (w - 1) * b + 1)

/-- What the wire gives an asynchronous frame that is started in `s`: bit `i` in tick `HALF + i*BIT_PERIOD`, and 0 for a
faulted read (42_async_reader.md R193, 20_memory.md R74). -/
def asyncBits (s : State) (i : Nat) : Bool :=
  !(s.envAfter (s.cfg.bitPeriod.toNat / 2 + i * s.cfg.bitPeriod.toNat)).input.dataFault &&
    (s.envAfter (s.cfg.bitPeriod.toNat / 2 + i * s.cfg.bitPeriod.toNat)).input.dataIn

theorem asyncBits_of_reaches {s t : State} {k i : Nat} (h : s.Reaches k t)
    (hk : k = s.cfg.bitPeriod.toNat / 2 + i * s.cfg.bitPeriod.toNat) :
    capture t.input.dataIn t.input.dataFault false = asyncBits s i := by
  rw [asyncBits, ← hk, ← h.input, capture_eq, Bool.and_false, Bool.false_or]

/-- One tick of an asynchronous frame that is not over. -/
theorem AsyncFrameAt.next {s t : State} {k : Nat} (reached : s.Reaches k t) (hr : t.Running) (hm : t.cfg.mode = .async)
    (abort : t.input.abort = false) (inFlight : k ≤ s.cfg.bitPeriod.toNat / 2 + (s.cfg.w - 1) * s.cfg.bitPeriod.toNat)
    (h : AsyncFrameAt s.cfg.bitPeriod.toNat s.cfg.w (asyncBits s) k t.now) :
    AsyncFrameAt s.cfg.bitPeriod.toNat s.cfg.w (asyncBits s) (k + 1) (afterTick t).nxt := by
  obtain ⟨-, -, valid, hw⟩ := hr
  cases h with
  | finished idle after => omega
  | reading n sampling more ends count captured =>
    obtain ⟨busy, pos⟩ := afr_delay_runs hm hw sampling
    by_cases last : t.now.bsRem = 1#16
    case neg =>
      obtain ⟨sampling', bit', acc', rem'⟩ := afr_regs_of_view (afr_wait_tick hm hw busy last abort)
      have counted := toNat_sub_one_add_one pos
      simp only at rem'
      exact .reading n (sampling'.trans sampling) more (by rw [rem']; omega) (by rw [bit']; exact count)
        (by rw [acc']; exact captured)
    case pos =>
      have one : t.now.bsRem.toNat = 1 := by rw [last]; rfl
      by_cases full : n = s.cfg.w - 1
      · have view := (async_tick hm hw).trans (afrNext_of_finish abort sampling last (by rw [count, full, reached.cfg]))
        obtain ⟨sampling', -⟩ := afr_regs_of_view view
        exact .finished sampling' (by rw [← full]; omega)
      · have view :=
          (async_tick hm hw).trans (afrNext_of_sample abort sampling last (by rw [count, reached.cfg]; exact full))
        obtain ⟨sampling', bit', acc', rem'⟩ := afr_regs_of_view view
        obtain ⟨-, w16⟩ := width_bounds valid
        rw [reached.cfg] at w16
        simp only [reached.cfg] at rem'
        have next : (n + 1) * s.cfg.bitPeriod.toNat = n * s.cfg.bitPeriod.toNat + s.cfg.bitPeriod.toNat :=
          Nat.succ_mul _ _
        refine .reading (n + 1) (sampling'.trans sampling) (by omega) (by rw [rem']; omega) ?_ ?_
        · rw [bit', toNat_bit_succ (w := s.cfg.w) (by omega) w16, count]
        · rw [acc', count, asyncBits_of_reaches (i := n) reached (by omega)]
          exact captured.orBit (by omega)

/-- The tick of the edge begins the frame. -/
theorem asyncFrameAt_one {s : State} (hr : s.Running) (hm : s.cfg.mode = .async) (abort : s.input.abort = false)
    (idle : s.now.afrSampling = false) (edge : seesEdge s = true) :
    AsyncFrameAt s.cfg.bitPeriod.toNat s.cfg.w (asyncBits s) 1 (afterTick s).nxt := by
  obtain ⟨-, -, valid, hw⟩ := hr
  obtain ⟨w11, -⟩ := width_bounds valid
  have view := (async_tick hm hw).trans (afrNext_of_edge abort idle edge)
  obtain ⟨sampling', bit', acc', rem'⟩ := afr_regs_of_view view
  have delay := toNat_half s.cfg
  simp only at rem'
  exact .reading 0 sampling' (by omega) (by rw [rem']; omega) (by rw [bit']; rfl) (by rw [acc']; exact captured_zero _)

/-- `k` ticks after the edge the machine is where the frame has it. -/
theorem asyncFrame_reaches {s : State} {k : Nat} (hs : s.Steady k) (hm : s.cfg.mode = .async) (noAbort : s.NoAbort k)
    (idle : s.now.afrSampling = false) (edge : seesEdge s = true) (pos : 1 ≤ k)
    (notAfter : k ≤ s.cfg.bitPeriod.toNat / 2 + (s.cfg.w - 1) * s.cfg.bitPeriod.toNat + 1) :
    ∃ t, s.Reaches k t ∧ AsyncFrameAt s.cfg.bitPeriod.toNat s.cfg.w (asyncBits s) k t.now := by
  have running := hs.running pos
  have first := asyncFrameAt_one running hm (noAbort 0 pos) idle edge
  refine hs.run_induction (P := fun k t => AsyncFrameAt s.cfg.bitPeriod.toNat s.cfg.w (asyncBits s) k t.now) pos
    ((State.Reaches.refl hs.ok).succ running) first ?_
  intro j t _ below reached running frame
  exact frame.next reached running (by rw [reached.cfg, hm]) (reached.abort_eq_false noAbort below) (by omega)

/-! ### The length and the word of the frame, 42_async_reader.md R190, R192, R195 -/

/-- The bits before the last are sampled a period apart, so none is sampled after the last one. -/
theorem bit_tick_le {b w n : Nat} (h : n < w) : n * b ≤ (w - 1) * b :=
  Nat.mul_le_mul_right b (Nat.le_pred_of_lt h)

/-- Settles O50: the frame is in flight while its number of ticks is not reached, and is over in the next state. -/
theorem asyncFrameTakesItsTime : Obligations.AsyncFrameTakesItsTime := by
  rintro s k f rfl inRange valid hw hm idle fault prev level pos notAfter undisturbed noAbort
  obtain ⟨t, reached, frame⟩ := asyncFrame_reaches ⟨inRange, valid, hw, undisturbed⟩ hm noAbort idle
    ((seesEdge_iff hm).2 ⟨fault, prev, level⟩) pos notAfter
  refine ⟨t, reached.run, ?_⟩
  cases frame with
  | finished idle after => rw [idle, decide_eq_false (by omega)]
  | reading n sampling more ends =>
    obtain ⟨-, left⟩ := afr_delay_runs (by rw [reached.cfg, hm]) reached.ok sampling
    have notLater := bit_tick_le (b := s.cfg.bitPeriod.toNat) more
    rw [sampling, decide_eq_true (by omega)]

/-- The word that the AFR completes in the tick of the last sample (42_async_reader.md R190). -/
theorem completedWord_of_afr {t : State} (hm : t.cfg.mode = .async) (hw : WF t.cfg t.now)
    (sampling : t.now.afrSampling = true) (last : t.now.bsRem = 1#16) (full : t.now.afrBit.toNat = t.cfg.w - 1)
    (abort : t.input.abort = false) :
    completedWord t = some (orBit t.now.afrAcc (capture t.input.dataIn t.input.dataFault false) (t.cfg.w - 1)) := by
  obtain ⟨busy, -⟩ := afr_delay_runs hm hw sampling
  obtain ⟨idle, -⟩ := hw.mode.2 hm
  obtain ⟨-, -, request⟩ := hw.request
  obtain ⟨-, fb, -⟩ := request sampling
  have notTail : t.now.ssrPhase ≠ phClkTail := by rw [idle]; decide
  rw [completedWord, if_pos ⟨busy, last, abort⟩, if_neg notTail, if_pos ⟨sampling, full⟩, fb]

/-- In its last tick the frame samples the last bit: the word it completes holds every bit of the wire. -/
theorem AsyncFrameAt.completes {s t : State} {k : Nat} (h : AsyncFrameAt s.cfg.bitPeriod.toNat s.cfg.w (asyncBits s) k t.now)
    (hk : k = s.cfg.bitPeriod.toNat / 2 + (s.cfg.w - 1) * s.cfg.bitPeriod.toNat) (reached : s.Reaches k t)
    (valid : s.cfg.Valid s.plat) (hm : t.cfg.mode = .async) (abort : t.input.abort = false) :
    ∃ w, completedWord t = some w ∧ Captured (asyncBits s) s.cfg.w w := by
  obtain ⟨w11, w16⟩ := width_bounds valid
  have period := two_le_bitPeriod valid (reached.cfg ▸ hm)
  cases h with
  | finished idle after => omega
  | reading n sampling more ends count captured =>
    obtain ⟨-, pos⟩ := afr_delay_runs hm reached.ok sampling
    have full : n = s.cfg.w - 1 := by
      by_contra early
      have notLater := bit_tick_le (b := s.cfg.bitPeriod.toNat) (show n + 1 < s.cfg.w by omega)
      rw [Nat.succ_mul] at notLater
      omega
    rw [← full] at hk
    have last : t.now.bsRem = 1#16 := BitVec.eq_of_toNat_eq (show _ = 1 by omega)
    refine ⟨_, completedWord_of_afr hm reached.ok sampling last (by rw [count, full, reached.cfg]) abort, ?_⟩
    have whole := captured.orBit (by omega)
    rwa [asyncBits_of_reaches reached hk, reached.cfg, ← full, show s.cfg.w = n + 1 by omega]

/-- Settles O51: the frame stands in its last tick with every bit but the last captured, and that tick samples the last. -/
theorem asyncWordIsTheSampledWire : Obligations.AsyncWordIsTheSampledWire := by
  rintro s b f rfl rfl inRange valid hw hm idle fault prev level undisturbed noAbort
  have period := two_le_bitPeriod valid hm
  have steady : s.Steady _ := ⟨inRange, valid, hw, undisturbed_mono (Nat.le_succ _) undisturbed⟩
  obtain ⟨t, reached, frame⟩ := asyncFrame_reaches steady hm (noAbort_mono (Nat.le_succ _) noAbort) idle
    ((seesEdge_iff hm).2 ⟨fault, prev, level⟩) (by omega) (Nat.le_succ _)
  obtain ⟨w, word, captured⟩ := frame.completes rfl reached valid (by rw [reached.cfg, hm])
    (reached.abort_eq_false noAbort (Nat.lt_succ_self _))
  refine ⟨t, w, reached.run, word, fun i hi => ?_⟩
  rw [captured i hi, asyncBits, Bool.and_assoc]

end Sys2Proof.Machine
end

section
/-! PROOFS. The event port and the emission with a ready sink (43_state_differ.md R218 to R229, 70_reset_and_hazards.md
R325): what a tick transfers, what it leaves pending, and where the StateDiffer stands `k` ticks after a take. -/

namespace Sys2Proof.Machine

/-! ### The port in a running tick, 43_state_differ.md R218, R220 -/

theorem portOpen_of_running {s : State} (hr : s.Running) : portOpen s = true := by
  obtain ⟨accepted, rst, valid, -⟩ := hr
  rw [portOpen_accepted accepted, rst]
  exact valid

theorem evValid_of_running {s : State} (hr : s.Running) : evValid s = (pend s).isSome := by
  rw [evValid, portOpen_of_running hr, Bool.true_and]

theorem evValid_of_portOpen_eq_false {s : State} (h : portOpen s = false) : evValid s = false := by
  rw [evValid, h, Bool.false_and]

theorem pend_of_sdsEmit {s : State} (emit : s.now.sdState = sdsEmit) :
    pend s = if chgHit s then some (currentReport s) else none := by
  have notSync : sdsEmit ≠ sdsSync := by decide
  simp [pend, emit, notSync]

theorem pend_of_sdsSync {s : State} (sync : s.now.sdState = sdsSync) : pend s = some .sync := by
  have notEmit : sdsSync ≠ sdsEmit := by decide
  simp [pend, sync, notEmit]

theorem evWord_of_pend {s : State} {e : Event} (hr : s.Running) (h : pend s = some e) : evWord s = e.word := by
  simp [evWord, evValid_of_running hr, h]

/-! ### What a tick transfers, 43_state_differ.md R221 -/

/-- A running tick appends the word of the pending event exactly when the sink is ready. -/
theorem tick_trace_of_pend {s : State} (hw : WF s.cfg s.now) :
    (afterTick s).trace = s.trace ++ if s.input.sinkReady = true then ((pend s).map fun e => (s.tick, e.word)).toList
      else [] := by
  rw [tick_trace]
  cases ready : s.input.sinkReady with
  | false => simp
  | true =>
    rcases sd_cases s with idle | ⟨busy, emit⟩ | ⟨busy, notEmit⟩
    · simp [idle, pend_of_sdsIdle idle]
    · cases hit : chgHit s <;> simp [emit, hit, pend_of_sdsEmit emit]
    · simp [busy, notEmit, pend_of_sdsSync (sd_sync hw busy notEmit)]

/-- The trace gains the word on the port in a running tick, and nothing in any other. -/
theorem trace_of_step {s t : State} (h : step s = .next t) :
    t.trace = s.trace ++ if evValid s = true ∧ s.input.sinkReady = true then [(s.tick, evWord s)] else [] := by
  obtain ⟨accepted, ⟨rst, rfl⟩ | ⟨rst, invalid, rfl⟩ | ⟨running, rfl⟩⟩ := step_cases h
  · have closed : portOpen s = false := by simp [portOpen, rst]
    simp [evValid_of_portOpen_eq_false closed]
  · have closed : portOpen s = false := by
      rw [portOpen_accepted accepted]
      simpa [rst] using invalid
    simp [evValid_of_portOpen_eq_false closed]
  · have ⟨_, _, _, hw⟩ := running
    rw [tickBoundary_trace, tick_trace_of_pend hw, evValid_of_running running]
    cases pending : pend s with
    | none => simp
    | some e => cases s.input.sinkReady <;> simp [evWord_of_pend running pending]

/-- Settles O37: the trace by the kind of the tick. -/
theorem traceGrowsByTheTransferredWord : Obligations.TraceGrowsByTheTransferredWord :=
  fun _ _ => trace_of_step

/-- The word of an event is no reserved word (30_encoding.md R104). -/
theorem decode_event_word (e : Event) : ∃ i, decode (.ev e.word) = .ok i := by
  cases e with
  | sync => exact ⟨_, rfl⟩
  | report id pressed =>
    have kind : evKind (reportWord pressed id) = false := Laws.OwnRow.reportWord_kind pressed id
    exact ⟨_, by rw [Event.word, decode, decodeEvent, kind]; rfl⟩

/-- Settles O39: what the trace gains is the word of the pending event. -/
theorem onlyLegalWordsAreTransferred : Obligations.OnlyLegalWordsAreTransferred := by
  intro s t h x new old
  rw [trace_of_step h, List.mem_append] at new
  have transferred := new.resolve_left old
  split_ifs at transferred with port
  · rw [List.mem_singleton] at transferred
    subst transferred
    obtain ⟨valid, -⟩ := port
    rcases pending : pend s with - | e
    · exact absurd ((evValid_of_pend_none pending).symm.trans valid) Bool.false_ne_true
    · rw [evWord, if_pos valid, pending]
      exact decode_event_word e
  · exact absurd transferred List.not_mem_nil

/-! ### What a tick leaves pending, 43_state_differ.md R220, R227 -/

/-- The pending event depends on the StateDiffer's registers and the record alone. -/
theorem pend_congr {s t : State} (cfg : t.cfg = s.cfg) (state : t.now.sdState = s.now.sdState)
    (pos : t.now.sdPos = s.now.sdPos) (cur : t.now.sdCur = s.now.sdCur) (chg : t.now.sdChg = s.now.sdChg) :
    pend t = pend s := by
  have hit : chgHit t = chgHit s := by simp only [chgHit, cfg, state, pos, chg]
  have report : currentReport t = currentReport s := by simp only [currentReport, cfg, pos, cur]
  simp only [pend, hit, report, state]

/-- Settles O38: a StateDiffer whose event meets no ready sink waits. -/
theorem presentedEventIsStable : Obligations.PresentedEventIsStable := by
  intro s t running h pending stalled
  rw [step_running s running] at h
  obtain rfl := Host.Outcome.next.inj h
  have busy : s.now.sdState ≠ sdsIdle := by
    intro idle
    rw [pend_of_sdsIdle idle] at pending
    cases pending
  have hit (emit : s.now.sdState = sdsEmit) : chgHit s = true := by
    rw [pend_of_sdsEmit emit] at pending
    by_contra noHit
    rw [if_neg noHit] at pending
    cases pending
  obtain ⟨state, pos, -⟩ := sd_wait_tick rfl busy hit stalled
  obtain ⟨cfg, -, cur, chg⟩ := sd_busy_tick_keeps_frame rfl busy
  exact ⟨pend_congr cfg state pos cur chg, state, pos⟩

/-- `prev_word` is written by the transfer of the SYNC alone (10_state.md R40). -/
theorem prevWord_tick {s : State} (hw : WF s.cfg s.now) :
    (afterTick s).nxt.prevWord =
      if s.now.sdState = sdsSync ∧ s.input.sinkReady = true then s.now.sdCur else s.now.prevWord := by
  have third : (s.now.sdState ≠ sdsIdle ∧ s.now.sdState ≠ sdsEmit) ↔ s.now.sdState = sdsSync :=
    ⟨fun ⟨busy, notEmit⟩ => sd_sync hw busy notEmit, fun sync => by rw [sync]; decide⟩
  rw [tick_prevWord]
  simp only [← and_assoc, third]

/-- Settles O35. -/
theorem previousWordIsWrittenOnlyBySync : Obligations.PreviousWordIsWrittenOnlyBySync := by
  rintro s t running h
  rw [step_running s running] at h
  obtain rfl := Host.Outcome.next.inj h
  obtain ⟨-, -, -, hw⟩ := running
  exact prevWord_tick hw

/-- Settles O52: the tick conserves the emission, keeps the frame, and writes `prev_word` with the SYNC alone. -/
theorem emissionIsConservedByATick : Obligations.EmissionIsConservedByATick := by
  rintro s t running busy h
  rw [step_running s running] at h
  obtain rfl := Host.Outcome.next.inj h
  have ⟨_, _, _, hw⟩ := running
  obtain ⟨conserved, -⟩ := sd_busy_tick_conserves_emission running rfl busy
  obtain ⟨-, -, cur, chg⟩ := sd_busy_tick_keeps_frame rfl busy
  exact ⟨conserved, cur, chg, prevWord_tick hw⟩

/-! ### The emission with a ready sink, 70_reset_and_hazards.md R325 -/

/-- The StateDiffer stands at map position `p` of the frame that `s` takes, with `prev_word` as it was and the frame's
events split between the trace and what is still to be sent. -/
structure EmittingAt (s : State) (p : Nat) (t : State) : Prop where
  atPosition : t.AtPosition
  pos : t.now.sdPos.toNat = p
  cur : t.now.sdCur = s.now.handWord
  prev : t.now.prevWord = s.now.prevWord
  conserved : emission t = traceWords s ++ (diff s.now.prevWord s.now.handWord s.cfg).map Event.word

/-- The tick of the take stands at position 0. -/
theorem emittingAt_zero {s : State} (hw : WF s.cfg s.now) (idle : s.now.sdState = sdsIdle)
    (full : s.now.handFull = true) : EmittingAt s 0 (tickBoundary (afterTick s)) := by
  obtain ⟨-, cur, -, pos, atPosition⟩ := sd_take_tick rfl idle full
  have notSync : s.now.sdState ≠ sdsSync := by rw [idle]; decide
  refine ⟨atPosition, pos, cur, ?_, sd_take_tick_emission rfl idle full⟩
  rw [tickBoundary_now, prevWord_tick hw, if_neg (fun h => notSync h.1)]

/-- With a ready sink every used position takes one tick. -/
theorem EmittingAt.next {s t : State} {p : Nat} (h : EmittingAt s p t) (hr : t.Running)
    (ready : t.input.sinkReady = true) (below : p < t.cfg.len) :
    EmittingAt s (p + 1) (tickBoundary (afterTick t)) := by
  have ⟨_, _, _, hw⟩ := hr
  have busy := h.atPosition.not_idle
  have emit : t.now.sdState = sdsEmit := by rw [h.atPosition.state_eq, h.pos, if_pos below]
  have notSync : t.now.sdState ≠ sdsSync := by rw [emit]; decide
  obtain ⟨pos, atPosition, -⟩ := sd_visit_tick hr rfl emit (.inr ready)
  obtain ⟨-, -, cur, -⟩ := sd_busy_tick_keeps_frame rfl busy
  obtain ⟨conserved, -⟩ := sd_busy_tick_conserves_emission hr rfl busy
  refine ⟨atPosition, by rw [pos, h.pos], cur.trans h.cur, ?_, conserved.trans h.conserved⟩
  rw [tickBoundary_now, prevWord_tick hw, if_neg (fun sync => notSync sync.1), h.prev]

theorem State.Steady.mono {m n : Nat} {s : State} (h : s.Steady n) (hmn : m ≤ n) : s.Steady m :=
  ⟨h.inRange, h.valid, h.ok, undisturbed_mono hmn h.undisturbed⟩

/-- With a ready sink the StateDiffer stands at position `p` in the state `p + 1` ticks after the take, up to MAP_LEN. -/
theorem emitting_reaches {s : State} {n p : Nat} (hs : s.Steady n) (ready : s.SinkReady n)
    (idle : s.now.sdState = sdsIdle) (full : s.now.handFull = true) (hn : p + 1 ≤ n) (hp : p ≤ s.cfg.len) :
    ∃ t, s.Reaches (p + 1) t ∧ EmittingAt s p t := by
  have running := hs.running (Nat.lt_of_lt_of_le (Nat.succ_pos p) hn)
  refine (hs.mono hn).run_induction (P := fun k t => EmittingAt s (k - 1) t) (Nat.succ_pos p)
    ((State.Reaches.refl hs.ok).succ running) (emittingAt_zero hs.ok idle full) ?_
  intro k t from1 below reached running emitting
  have next := emitting.next running (reached.sinkReady ready (by omega)) (by rw [reached.cfg]; omega)
  rwa [show k - 1 + 1 = k + 1 - 1 by omega] at next

/-- Settles O54: position `p` stands `p + 1` ticks after the take; past the last one the SYNC transfers and the StateDiffer
returns to IDLE. -/
theorem emissionEndsWithAReadySink : Obligations.EmissionEndsWithAReadySink := by
  intro s running idle full undisturbed ready
  obtain ⟨⟨inRange, -⟩, -, valid, hw⟩ := running
  have steady : s.Steady (s.cfg.len + 2) := ⟨inRange, valid, hw, undisturbed⟩
  obtain ⟨u, reached, emitting⟩ := emitting_reaches steady ready idle full (Nat.le_succ _) le_rfl
  have sync : u.now.sdState = sdsSync := by
    rw [emitting.atPosition.state_eq, emitting.pos, reached.cfg, if_neg (Nat.lt_irrefl _)]
  refine ⟨fun p hp => ?_, ⟨u, reached.run, sync, emitting.prev⟩, ?_⟩
  · obtain ⟨t, reached, emitting⟩ := emitting_reaches steady ready idle full (by omega) hp.le
    refine ⟨t, reached.run, ?_, emitting.pos⟩
    rw [emitting.atPosition.state_eq, emitting.pos, reached.cfg, if_pos hp]
  · have busy := emitting.atPosition.not_idle
    have notEmit : u.now.sdState ≠ sdsEmit := by rw [sync]; decide
    have running := reached.running steady (Nat.lt_succ_self _)
    have sinkReady := reached.sinkReady ready (Nat.lt_succ_self _)
    obtain ⟨done, prev, -⟩ := sd_sync_tick rfl busy notEmit sinkReady
    obtain ⟨conserved, -⟩ := sd_busy_tick_conserves_emission running rfl busy
    refine ⟨_, (reached.succ running).run, done, prev.trans emitting.cur, ?_, ?_⟩
    · rw [tickBoundary_trace, tick_trace_of_pend reached.ok, pend_of_sdsSync sync, if_pos sinkReady, reached.tick,
        Nat.add_assoc]
      simp [Event.word, syncWord]
    · rw [← emission_of_sdsIdle done, conserved, emitting.conserved]

end Sys2Proof.Machine
end

section
/-! PROOFS. No overrun with a ready sink (70_reset_and_hazards.md R316): the StateDiffer works off a frame in fewer ticks than
a reader needs for the next one. The invariant compares the two, and it holds along every run from reset. -/

namespace Sys2Proof.Machine

/-! ### How many ticks a reader needs until it completes a word -/

/-- The ticks of a synchronous frame that come after its present phase (41_sync_reader.md R163). -/
def ticksAfterPhase (tu w : Nat) (phase : BitVec 4) (bit : BitVec 5) : Nat :=
  if phase = phLatch then 6 * tu + 12 * (tu * w)
  else if phase = phSettle then 12 * (tu * w)
  else if phase = phClkHigh then 6 * tu + 12 * (tu * (w - bit.toNat))
  else if phase = phClkLow then 12 * (tu * (w - bit.toNat))
  else 0

/-- The least number of ticks, this one included, in which the SSR can complete a word. -/
def ssrTicksToWord (tu w : Nat) (v : SsrView) : Nat :=
  if v.phase = phIdle then 18 * tu + 12 * (tu * w) + 1 else v.rem.toNat + ticksAfterPhase tu w v.phase v.bit

/-- The least number of ticks, this one included, in which the AFR can complete a word (42_async_reader.md R192). -/
def afrTicksToWord (b w : Nat) (v : AfrView) : Nat :=
  if v.sampling then v.rem.toNat + (w - 1 - v.bit.toNat) * b else b / 2 + (w - 1) * b + 1

/-- The same for the reader that the mode uses. -/
def State.ticksToWord (s : State) : Nat :=
  match s.cfg.mode with
  | .sync => ssrTicksToWord s.plat.tu s.cfg.w (ssrView s.now)
  | .async => afrTicksToWord s.cfg.bitPeriod.toNat s.cfg.w (afrView s.now)

theorem ticksToWord_sync {s : State} (hm : s.cfg.mode = .sync) :
    s.ticksToWord = ssrTicksToWord s.plat.tu s.cfg.w (ssrView s.now) := by
  simp only [State.ticksToWord, hm]

theorem ticksToWord_async {s : State} (hm : s.cfg.mode = .async) :
    s.ticksToWord = afrTicksToWord s.cfg.bitPeriod.toNat s.cfg.w (afrView s.now) := by
  simp only [State.ticksToWord, hm]

theorem ssrTicksToWord_of_idle {tu w : Nat} {v : SsrView} (idle : v.phase = phIdle) :
    ssrTicksToWord tu w v = 18 * tu + 12 * (tu * w) + 1 := if_pos idle

theorem ssrTicksToWord_of_inFlight {tu w : Nat} {v : SsrView} (left : v.phase ≠ phIdle) :
    ssrTicksToWord tu w v = v.rem.toNat + ticksAfterPhase tu w v.phase v.bit := if_neg left

section
variable (tu w : Nat) (bit : BitVec 5)

theorem ticksAfterPhase_latch : ticksAfterPhase tu w phLatch bit = 6 * tu + 12 * (tu * w) := rfl
theorem ticksAfterPhase_settle : ticksAfterPhase tu w phSettle bit = 12 * (tu * w) := rfl
theorem ticksAfterPhase_clkHigh : ticksAfterPhase tu w phClkHigh bit = 6 * tu + 12 * (tu * (w - bit.toNat)) := rfl
theorem ticksAfterPhase_clkLow : ticksAfterPhase tu w phClkLow bit = 12 * (tu * (w - bit.toNat)) := rfl
theorem ticksAfterPhase_clkTail : ticksAfterPhase tu w phClkTail bit = 0 := rfl

end

theorem one_le_ticksToWord {s : State} (hw : WF s.cfg s.now) : 1 ≤ s.ticksToWord := by
  cases hm : s.cfg.mode with
  | sync =>
    rw [ticksToWord_sync hm]
    by_cases idle : s.now.ssrPhase = phIdle
    · rw [ssrTicksToWord_of_idle (v := ssrView s.now) idle]
      omega
    · obtain ⟨-, pos⟩ := ssr_delay_runs hm hw idle
      rw [ssrTicksToWord_of_inFlight (v := ssrView s.now) idle]
      exact Nat.le_add_right_of_le pos
  | async =>
    rw [ticksToWord_async hm, afrTicksToWord]
    split_ifs with sampling
    · obtain ⟨-, pos⟩ := afr_delay_runs hm hw sampling
      exact Nat.le_add_right_of_le pos
    · omega

/-- The bits left after a sample are one fewer. -/
theorem bits_left {tu w n : Nat} (h : n < w) : tu * (w - n) = tu * (w - (n + 1)) + tu := by
  rw [show w - n = w - (n + 1) + 1 by omega, Nat.mul_succ]

/-- The tick that samples leaves the frame one tick shorter. -/
theorem ssrTicksToWord_sample {s : State} (hr : s.Running) (abort : s.input.abort = false)
    (phase : s.now.ssrPhase = phSettle ∨ s.now.ssrPhase = phClkLow) (last : s.now.bsRem = 1#16)
    (rest : ticksAfterPhase s.plat.tu s.cfg.w s.now.ssrPhase s.now.ssrBit =
      12 * (s.plat.tu * (s.cfg.w - s.now.ssrBit.toNat))) :
    ssrTicksToWord s.plat.tu s.cfg.w (ssrView s.now) = ssrTicksToWord s.plat.tu s.cfg.w (ssrNext s) + 1 := by
  obtain ⟨⟨inRange, -⟩, -, valid, hw⟩ := hr
  have left : s.now.ssrPhase ≠ phIdle := by rcases phase with h | h <;> rw [h] <;> decide
  have below := ssrBit_lt_of_samples valid hw phase
  obtain ⟨-, w16⟩ := width_bounds valid
  rw [ssrTicksToWord_of_inFlight (v := ssrView s.now) left, ssrNext_of_sample abort phase last,
    ssrTicksToWord_of_inFlight (by simp [phClkHigh, phIdle])]
  simp only [ssrView]
  rw [rest, last, ticksAfterPhase_clkHigh, toNat_tCh inRange, toNat_bit_succ below w16, bits_left below]
  simp only [BitVec.toNat_ofNat]
  omega

/-- One tick brings a frame of the SSR one tick nearer to its word, or leaves the SSR in IDLE. -/
theorem ssrTicksToWord_tick {s : State} (hr : s.Running) (hm : s.cfg.mode = .sync) :
    ssrTicksToWord s.plat.tu s.cfg.w (ssrView s.now) = ssrTicksToWord s.plat.tu s.cfg.w (ssrNext s) + 1 ∨
      (ssrNext s).phase = phIdle := by
  have ⟨⟨inRange, _⟩, _, valid, hw⟩ := hr
  have one : (1#16).toNat = 1 := rfl
  have cl := toNat_tCl inRange
  cases abort : s.input.abort with
  | true => exact .inr (by simp [ssrNext, abort])
  | false =>
    by_cases idle : s.now.ssrPhase = phIdle
    · cases strobe : strobes s with
      | false => exact .inr (by simp [ssrNext, abort, idle, strobe, ssrView])
      | true =>
        have lh := toNat_tLh inRange
        rw [ssrTicksToWord_of_idle (v := ssrView s.now) idle, ssrNext_of_strobe abort idle strobe,
          ssrTicksToWord_of_inFlight (by simp [phLatch, phIdle]), ticksAfterPhase_latch, lh]
        exact .inl (by omega)
    · obtain ⟨busy, pos⟩ := ssr_delay_runs hm hw idle
      by_cases last : s.now.bsRem = 1#16
      case neg =>
        have wait : ssrNext s = { ssrView s.now with rem := s.now.bsRem - 1#16 } := by simp [ssrNext, abort, idle, last]
        have counted := toNat_sub_one_add_one pos
        rw [wait, ssrTicksToWord_of_inFlight (v := ssrView s.now) idle, ssrTicksToWord_of_inFlight (by exact idle)]
        simp only [ssrView]
        exact .inl (by omega)
      case pos =>
        rcases hw.phase with phase | phase | phase | phase | phase | phase
        · exact absurd phase idle
        · have ls := toNat_tLs inRange
          rw [ssrTicksToWord_of_inFlight (v := ssrView s.now) idle, ssrNext_of_latchEnd abort phase last,
            ssrTicksToWord_of_inFlight (by simp [phSettle, phIdle])]
          simp only [ssrView, phase, last, ticksAfterPhase_latch, ticksAfterPhase_settle, ls, one]
          exact .inl (by omega)
        · obtain ⟨atZero, -⟩ := hw.ssrBit
          refine .inl (ssrTicksToWord_sample hr abort (.inl phase) last ?_)
          rw [phase, atZero (.inr phase)]
          rfl
        · by_cases full : s.now.ssrBit.toNat = s.cfg.w
          · rw [ssrTicksToWord_of_inFlight (v := ssrView s.now) idle, ssrNext_of_lastClkEnd abort phase last full,
              ssrTicksToWord_of_inFlight (by simp [phClkTail, phIdle])]
            simp only [ssrView, phase, last, ticksAfterPhase_clkHigh, ticksAfterPhase_clkTail, cl, one, full,
              Nat.sub_self, Nat.mul_zero]
            exact .inl (by omega)
          · rw [ssrTicksToWord_of_inFlight (v := ssrView s.now) idle, ssrNext_of_clkEnd abort phase last full,
              ssrTicksToWord_of_inFlight (by simp [phClkLow, phIdle])]
            simp only [ssrView, phase, last, ticksAfterPhase_clkHigh, ticksAfterPhase_clkLow, cl, one]
            exact .inl (by omega)
        · refine .inl (ssrTicksToWord_sample hr abort (.inr phase) last ?_)
          rw [phase]
          rfl
        · exact .inr (by rw [ssrNext_of_finish abort phase last])

/-- One tick brings a frame of the AFR one tick nearer to its word, or leaves the AFR in IDLE. -/
theorem afrTicksToWord_tick {s : State} (hr : s.Running) (hm : s.cfg.mode = .async) :
    afrTicksToWord s.cfg.bitPeriod.toNat s.cfg.w (afrView s.now) =
        afrTicksToWord s.cfg.bitPeriod.toNat s.cfg.w (afrNext s) + 1 ∨
      (afrNext s).sampling = false := by
  obtain ⟨-, -, valid, hw⟩ := hr
  have one : (1#16).toNat = 1 := rfl
  cases abort : s.input.abort with
  | true => exact .inr (by simp [afrNext, abort])
  | false =>
    cases sampling : s.now.afrSampling with
    | false =>
      cases edge : seesEdge s with
      | false => exact .inr (by simp [afrNext, abort, sampling, edge, afrView])
      | true =>
        have delay := toNat_half s.cfg
        rw [afrNext_of_edge abort sampling edge]
        simp only [afrTicksToWord, afrView, sampling, delay, if_true, BitVec.toNat_zero, Nat.sub_zero]
        exact .inl (by simp)
    | true =>
      obtain ⟨busy, pos⟩ := afr_delay_runs hm hw sampling
      obtain ⟨-, -, request⟩ := hw.request
      obtain ⟨-, -, range⟩ := request sampling
      by_cases last : s.now.bsRem = 1#16
      case neg =>
        have wait : afrNext s = { afrView s.now with rem := s.now.bsRem - 1#16 } := by
          simp [afrNext, abort, sampling, last]
        have counted := toNat_sub_one_add_one pos
        rw [wait]
        simp only [afrTicksToWord, afrView, sampling, if_true]
        exact .inl (by omega)
      case pos =>
        by_cases full : s.now.afrBit.toNat = s.cfg.w - 1
        · exact .inr (by rw [afrNext_of_finish abort sampling last full])
        · obtain ⟨-, w16⟩ := width_bounds valid
          have next := toNat_bit_succ (w := s.cfg.w) (bit := s.now.afrBit) (by omega) w16
          have bits : (s.cfg.w - 1 - s.now.afrBit.toNat) * s.cfg.bitPeriod.toNat =
              (s.cfg.w - 1 - (s.now.afrBit.toNat + 1)) * s.cfg.bitPeriod.toNat + s.cfg.bitPeriod.toNat := by
            rw [← Nat.succ_mul]
            congr 1
            omega
          rw [afrNext_of_sample abort sampling last full]
          simp only [afrTicksToWord, afrView, sampling, if_true, next, last, one]
          exact .inl (by omega)

/-- A reader that begins anew needs at least 19 ticks for a word. -/
theorem ticksToWord_tick {s : State} (hr : s.Running) :
    s.ticksToWord = (tickBoundary (afterTick s)).ticksToWord + 1 ∨
      19 ≤ (tickBoundary (afterTick s)).ticksToWord := by
  have ⟨⟨inRange, _⟩, _, valid, hw⟩ := hr
  obtain ⟨w11, -⟩ := width_bounds valid
  cases hm : s.cfg.mode with
  | sync =>
    have mode : (tickBoundary (afterTick s)).cfg.mode = .sync := by simp [hm]
    rw [ticksToWord_sync hm, ticksToWord_sync mode, tickBoundary_cfg, tickBoundary_plat, tickBoundary_now, afterTick_cfg,
      afterTick_plat, sync_tick hm hw]
    refine (ssrTicksToWord_tick hr hm).imp_right fun idle => ?_
    have tuPos := inRange.2.1
    rw [ssrTicksToWord_of_idle idle]
    omega
  | async =>
    have mode : (tickBoundary (afterTick s)).cfg.mode = .async := by simp [hm]
    rw [ticksToWord_async hm, ticksToWord_async mode, tickBoundary_cfg, tickBoundary_now, afterTick_cfg, async_tick hm hw]
    refine (afrTicksToWord_tick hr hm).imp_right fun idle => ?_
    have bits : 10 * 2 ≤ (s.cfg.w - 1) * s.cfg.bitPeriod.toNat :=
      Nat.mul_le_mul (by omega) (two_le_bitPeriod valid hm)
    simp only [afrTicksToWord, idle, Bool.false_eq_true, if_false]
    omega

/-- A word is completed in the last tick that its reader needs. -/
theorem ticksToWord_of_completedWord {s : State} {x : ButtonWord} (hw : WF s.cfg s.now) (h : completedWord s = some x) :
    s.ticksToWord = 1 := by
  have one : (1#16).toNat = 1 := rfl
  unfold completedWord at h
  cases hm : s.cfg.mode with
  | sync =>
    rw [ticksToWord_sync hm]
    obtain ⟨notSampling, -⟩ := hw.mode.1 hm
    split_ifs at h with fire tail last
    · simp only [ssrTicksToWord, ssrView, tail, fire, one]
      rfl
    · exact absurd (notSampling.symm.trans last.1) Bool.false_ne_true
  | async =>
    rw [ticksToWord_async hm]
    obtain ⟨idle, -⟩ := hw.mode.2 hm
    split_ifs at h with fire tail last
    · exact absurd (idle.symm.trans tail) (by decide)
    · simp only [afrTicksToWord, afrView, last, fire, one, if_true, Nat.sub_self, Nat.zero_mul, Nat.add_zero]

/-! ### How many ticks the StateDiffer needs for what it has -/

/-- The ticks that the StateDiffer needs, with a ready sink, until it is in IDLE with an empty handoff
(43_state_differ.md R223 to R227). -/
def State.backlog (s : State) : Nat :=
  if s.now.sdState = sdsIdle then (if s.now.handFull then s.cfg.len + 2 else 0) else s.cfg.len + 1 - s.now.sdPos.toNat

theorem backlog_of_full {s : State} (idle : s.now.sdState = sdsIdle) (full : s.now.handFull = true) :
    s.backlog = s.cfg.len + 2 := by rw [State.backlog, if_pos idle, if_pos full]

theorem backlog_of_empty {s : State} (idle : s.now.sdState = sdsIdle) (empty : s.now.handFull = false) :
    s.backlog = 0 := by rw [State.backlog, if_pos idle, if_neg (by rw [empty]; exact Bool.false_ne_true)]

theorem backlog_of_busy {s : State} (busy : s.now.sdState ≠ sdsIdle) :
    s.backlog = s.cfg.len + 1 - s.now.sdPos.toNat := if_neg busy

theorem backlog_le {s : State} (valid : s.cfg.Valid s.plat) : s.backlog ≤ 18 := by
  have len := len_le_of_valid valid
  unfold State.backlog
  split_ifs <;> omega

theorem idle_of_backlog_eq_zero {s : State} (hw : WF s.cfg s.now) (h : s.backlog = 0) :
    s.now.sdState = sdsIdle ∧ s.now.handFull = false := by
  by_cases idle : s.now.sdState = sdsIdle
  · refine ⟨idle, Bool.eq_false_of_not_eq_true fun full => ?_⟩
    rw [backlog_of_full idle full] at h
    omega
  · have pos := (atPosition_of_busy hw idle).pos_le
    rw [backlog_of_busy idle] at h
    omega

/-- What the handoff holds after a tick that completes no word (43_state_differ.md R211, R213). -/
theorem handFull_tick_of_none {s : State} (hw : WF s.cfg s.now) (h : completedWord s = none) :
    (afterTick s).nxt.handFull = (s.now.handFull && !take s) := by
  obtain ⟨-, word⟩ | ⟨noWrite, -⟩ := word_cases hw
  · rw [h] at word
    cases word
  · rw [tick_handFull, noWrite]
    cases take s <;> simp

/-- A tick with a ready sink that completes no word works off one tick of the backlog. -/
theorem backlog_tick {s : State} (hr : s.Running) (ready : s.input.sinkReady = true)
    (handIdle : s.now.handFull = true → s.now.sdState = sdsIdle) (h : completedWord s = none) :
    (tickBoundary (afterTick s)).backlog ≤ s.backlog - 1 := by
  have ⟨_, _, _, hw⟩ := hr
  have hand := handFull_tick_of_none hw h
  have cfg : (tickBoundary (afterTick s)).cfg = s.cfg := by simp
  by_cases idle : s.now.sdState = sdsIdle
  · cases full : s.now.handFull with
    | true =>
      obtain ⟨-, -, -, pos, next⟩ := sd_take_tick rfl idle full
      rw [backlog_of_busy next.not_idle, pos, cfg, backlog_of_full idle full]
      omega
    | false =>
      have state : (tickBoundary (afterTick s)).now.sdState = sdsIdle := by simp [tick_sdState, idle, full]
      have empty : (tickBoundary (afterTick s)).now.handFull = false := by simp [hand, full]
      rw [backlog_of_empty state empty]
      exact Nat.zero_le _
  · have empty : s.now.handFull = false := Bool.eq_false_of_not_eq_true fun full => idle (handIdle full)
    by_cases emit : s.now.sdState = sdsEmit
    · obtain ⟨pos, next, -⟩ := sd_visit_tick hr rfl emit (.inr ready)
      rw [backlog_of_busy next.not_idle, pos, cfg, backlog_of_busy idle]
      omega
    · obtain ⟨done, -, -⟩ := sd_sync_tick rfl idle emit ready
      have stillEmpty : (tickBoundary (afterTick s)).now.handFull = false := by simp [hand, empty]
      rw [backlog_of_empty done stillEmpty]
      exact Nat.zero_le _

/-! ### The invariant, 70_reset_and_hazards.md R316 -/

/-- The StateDiffer keeps up with the reader: it is done with what it has before the next word comes. -/
structure State.KeepsUp (s : State) : Prop where
  noOverrun : s.now.overrun = false
  handIdle : s.now.handFull = true → s.now.sdState = sdsIdle
  ahead : s.backlog < s.ticksToWord

theorem keepsUp_of_reset {s : State} (h : s.now = Regs.reset s.cfg) : s.KeepsUp := by
  have overrun : s.now.overrun = false := by rw [h]; rfl
  have idle : s.now.sdState = sdsIdle := by rw [h]; rfl
  have empty : s.now.handFull = false := by rw [h]; rfl
  refine ⟨overrun, fun _ => idle, ?_⟩
  rw [backlog_of_empty idle empty]
  exact one_le_ticksToWord (by rw [h]; exact wf_reset _)

/-- A running tick with a ready sink: a word comes only when the StateDiffer is done. -/
theorem State.KeepsUp.tick {s : State} (h : s.KeepsUp) (hr : s.Running) (ready : s.input.sinkReady = true) :
    (tickBoundary (afterTick s)).KeepsUp := by
  have ⟨_, _, valid, hw⟩ := hr
  have next := wf_of_step (step_running s hr)
  have later := one_le_ticksToWord next
  have validNext : (tickBoundary (afterTick s)).cfg.Valid (tickBoundary (afterTick s)).plat := by simpa using valid
  have short := backlog_le validNext
  have noOverrun : (tickBoundary (afterTick s)).now.overrun = false := by
    rw [tickBoundary_now, tick_overrun, h.noOverrun]
    cases full : s.now.handFull with
    | false => simp
    | true => simp [(take_iff s).2 ⟨h.handIdle full, full⟩]
  have ahead := h.ahead
  cases word : completedWord s with
  | none =>
    have worked := backlog_tick hr ready h.handIdle word
    refine ⟨noOverrun, fun full => ?_, ?_⟩
    · rw [tickBoundary_now, handFull_tick_of_none hw word, Bool.and_eq_true] at full
      obtain ⟨before, notTaken⟩ := full
      rw [(take_iff s).2 ⟨h.handIdle before, before⟩] at notTaken
      cases notTaken
    · rcases ticksToWord_tick hr with nearer | anew <;> omega
  | some x =>
    rw [ticksToWord_of_completedWord hw word] at ahead
    obtain ⟨idle, empty⟩ := idle_of_backlog_eq_zero hw (Nat.lt_one_iff.1 ahead)
    refine ⟨noOverrun, fun _ => by simp [tick_sdState, idle, empty], ?_⟩
    have lastTick := ticksToWord_of_completedWord hw word
    rcases ticksToWord_tick hr with nearer | anew <;> omega

theorem State.KeepsUp.step {s t : State} (h : s.KeepsUp) (ready : s.input.sinkReady = true) (hs : step s = .next t) :
    t.KeepsUp := by
  obtain ⟨-, ⟨-, rfl⟩ | ⟨-, -, rfl⟩ | ⟨running, rfl⟩⟩ := step_cases hs
  · exact keepsUp_of_reset rfl
  · exact keepsUp_of_reset rfl
  · exact h.tick running ready

theorem State.KeepsUp.run {n : Nat} {s t : State} (h : s.KeepsUp) (ready : s.SinkReady n)
    (run : Host.Core.run Sys2Proof.core n s = .next t) : t.KeepsUp := by
  induction n generalizing s with
  | zero => cases run; exact h
  | succ n ih =>
    obtain ⟨u, first, rest⟩ := exists_step_of_run run
    exact ih (h.step (ready 0 (Nat.succ_pos n)) first) (sinkReady_step ready first) rest

/-- Settles O56: the reset machine keeps up, and every step with a ready sink does. -/
theorem readySinkMeansNoOverrun : Obligations.ReadySinkMeansNoOverrun := by
  intro p c stim n t ready run
  have start : { State.resetWith p c with stim := stim }.KeepsUp := keepsUp_of_reset rfl
  exact (start.run ready run).noOverrun

end Sys2Proof.Machine
end

section
/-! PROOFS. The encoding and the decoding of every operation and event word (30_encoding.md R100, R104, R112), and the packed
configuration image (R106). -/

namespace Sys2Proof.Machine

/-! ### Operations and event words -/

/-- Every row's pattern is the encoding of its operation (30_encoding.md R112). -/
theorem encode_row : ∀ r ∈ operationMap, encode r.instr = .osv r.pattern := by
  decide

theorem reportWord_fields (pressed : Bool) (id : BitVec 16) :
    evPressed (reportWord pressed id) = pressed ∧ evId (reportWord pressed id) = id := by
  constructor
  · simp only [evPressed, reportWord, BitVec.getLsbD_append]
    simp
  · rw [evId, reportWord, BitVec.extractLsb'_append_eq_of_add_le (by decide), BitVec.extractLsb'_eq_self]

/-- One bit of a word as a field of width 1. -/
theorem ofBool_getLsbD {n : Nat} (x : BitVec n) (i : Nat) : BitVec.ofBool (x.getLsbD i) = x.extractLsb' i 1 := by
  apply BitVec.eq_of_getLsbD_eq
  intro j hj
  obtain rfl : j = 0 := by omega
  cases h : x.getLsbD i <;> simp [h]

/-- A word without the kind bit is the REPORT word of its fields (30_encoding.md R104). -/
theorem reportWord_of_fields {w : EventWord} (kind : evKind w = false) : reportWord (evPressed w) (evId w) = w := by
  rw [reportWord, ← kind, evKind, evPressed, evId, ofBool_getLsbD, ofBool_getLsbD,
    BitVec.extractLsb'_append_extractLsb'_eq_extractLsb' (by decide),
    BitVec.extractLsb'_append_extractLsb'_eq_extractLsb' (by decide)]
  exact BitVec.extractLsb'_eq_self

theorem decode_evReport (pressed : Bool) (id : BitVec 16) :
    decode (encode (.evReport pressed id)) = .ok (.evReport pressed id) := by
  obtain ⟨pressedBit, idBits⟩ := reportWord_fields pressed id
  have kind : evKind (reportWord pressed id) = false := Laws.OwnRow.reportWord_kind pressed id
  simp [encode, decode, decodeEvent, kind, pressedBit, idBits]

/-- Every operation is read back from its encoding. -/
theorem decode_encode (i : Instr) : decode (encode i) = .ok i := by
  cases i
  case evReport pressed id => exact decode_evReport pressed id
  all_goals decide

/-- Every event word that decodes is the encoding of what it decodes to. -/
theorem encode_of_decode_ev {w : EventWord} {i : Instr} (h : decode (.ev w) = .ok i) : encode i = .ev w := by
  simp only [decode, decodeEvent] at h
  split_ifs at h with kind sync
  · cases h
    rw [sync]
    rfl
  · cases h
    rw [encode, reportWord_of_fields (Bool.eq_false_of_not_eq_true kind)]

/-- Settles O1: the operations by their rows, the event words by their fields. -/
theorem decodeAndEncodeAgree : Obligations.DecodeAndEncodeAgree := by
  refine ⟨fun i _ => decode_encode i, fun w i => encode_of_decode_ev, fun v i h => ?_⟩
  obtain ⟨r, inMap, selected, rfl⟩ := row_of_decode_osv h
  exact ⟨r, inMap, rfl, selected, encode_row r inMap⟩

/-- Settles O3: the words are fixed, and the decoder evaluates on them. -/
theorem decodesAWordOfEveryUnit : Obligations.DecodesAWordOfEveryUnit := by
  unfold Obligations.DecodesAWordOfEveryUnit
  decide
/-! ### The packed configuration image, 30_encoding.md R106 -/

theorem modeOfBit_modeBit (m : Mode) : modeOfBit (modeBit m) = m := by cases m <;> rfl
theorem modeBit_modeOfBit (b : Bool) : modeBit (modeOfBit b) = b := by cases b <;> rfl
theorem edgeOfBit_edgeBit (e : StartEdge) : edgeOfBit (edgeBit e) = e := by cases e <;> rfl
theorem edgeBit_edgeOfBit (b : Bool) : edgeBit (edgeOfBit b) = b := by cases b <;> rfl
theorem modeBit_eq_decide (m : Mode) : modeBit m = decide (m = .async) := by cases m <;> rfl
theorem edgeBit_eq_decide (e : StartEdge) : edgeBit e = decide (e = .rising) := by cases e <;> rfl

/-- The fields of a map word. -/
theorem word_fields (e : MapEntry) :
    (MapEntry.word e).extractLsb' 0 16 = e.id ∧ (MapEntry.word e).extractLsb' 16 4 = e.idx ∧
      (MapEntry.word e).extractLsb' 20 12 = e.rsvd := by
  unfold MapEntry.word
  refine ⟨?_, ?_, ?_⟩
  · rw [BitVec.extractLsb'_append_eq_of_add_le (by decide), BitVec.extractLsb'_eq_self]
  · rw [BitVec.extractLsb'_append_eq_of_le (by decide), BitVec.extractLsb'_append_eq_of_add_le (by decide),
      BitVec.extractLsb'_eq_self]
  · rw [BitVec.extractLsb'_append_eq_of_le (by decide), BitVec.extractLsb'_append_eq_of_le (by decide),
      BitVec.extractLsb'_eq_self]

theorem entryOfWord_word (e : MapEntry) : entryOfWord (MapEntry.word e) = e := by
  obtain ⟨id, idx, rsvd⟩ := word_fields e
  simp only [entryOfWord, id, idx, rsvd]

theorem word_entryOfWord (w : BitVec 32) : MapEntry.word (entryOfWord w) = w := by
  simp only [MapEntry.word, entryOfWord]
  rw [BitVec.extractLsb'_append_extractLsb'_eq_extractLsb' (by decide),
    BitVec.extractLsb'_append_extractLsb'_eq_extractLsb' (by decide)]
  exact BitVec.extractLsb'_eq_self

/-- The fields of CFG0, from MODE in bit 0 to the reserved bits 31..13. -/
theorem packCfg_cfg0_fields (c : Cfg) :
    (packCfg c).cfg0.getLsbD 0 = modeBit c.mode ∧ (packCfg c).cfg0.extractLsb' 1 5 = c.width ∧
      (packCfg c).cfg0.extractLsb' 6 5 = c.mapLen ∧ (packCfg c).cfg0.getLsbD 11 = edgeBit c.startEdge ∧
      (packCfg c).cfg0.getLsbD 12 = c.handshake ∧ (packCfg c).cfg0.extractLsb' 13 19 = c.rsvd0 := by
  unfold packCfg
  refine ⟨?_, ?_, ?_, ?_, ?_, ?_⟩
  · simp only [BitVec.getLsbD_append]
    simp
  · rw [BitVec.extractLsb'_append_eq_of_le (by decide), BitVec.extractLsb'_append_eq_of_add_le (by decide),
      BitVec.extractLsb'_eq_self]
  · rw [BitVec.extractLsb'_append_eq_of_le (by decide), BitVec.extractLsb'_append_eq_of_le (by decide),
      BitVec.extractLsb'_append_eq_of_add_le (by decide), BitVec.extractLsb'_eq_self]
  · simp only [BitVec.getLsbD_append]
    simp
  · simp only [BitVec.getLsbD_append]
    simp
  · iterate 5 rw [BitVec.extractLsb'_append_eq_of_le (by decide)]
    exact BitVec.extractLsb'_eq_self

theorem packCfg_cfg2_fields (c : Cfg) :
    (packCfg c).cfg2.extractLsb' 0 16 = c.bitPeriod ∧ (packCfg c).cfg2.extractLsb' 16 16 = c.rsvd2 := by
  unfold packCfg
  constructor
  · rw [BitVec.extractLsb'_append_eq_of_add_le (by decide), BitVec.extractLsb'_eq_self]
  · rw [BitVec.extractLsb'_append_eq_of_le (by decide), BitVec.extractLsb'_eq_self]

theorem packCfg_mapw (c : Cfg) (p : Nat) (h : p < 16) : (packCfg c).mapw[p] = MapEntry.word c.map[p] := by
  simp [packCfg]

theorem unpackCfg_map (g : CfgImage) (p : Nat) (h : p < 16) : (unpackCfg g).map[p] = entryOfWord g.mapw[p] := by
  simp [unpackCfg]

theorem Cfg.eq_of_fields {a b : Cfg} (mode : a.mode = b.mode) (width : a.width = b.width) (mapLen : a.mapLen = b.mapLen)
    (map : a.map = b.map) (pollPeriod : a.pollPeriod = b.pollPeriod) (bitPeriod : a.bitPeriod = b.bitPeriod)
    (startEdge : a.startEdge = b.startEdge) (handshake : a.handshake = b.handshake) (rsvd0 : a.rsvd0 = b.rsvd0)
    (rsvd2 : a.rsvd2 = b.rsvd2) : a = b := by
  cases a
  cases b
  simp only [Cfg.mk.injEq]
  exact ⟨mode, width, mapLen, map, pollPeriod, bitPeriod, startEdge, handshake, rsvd0, rsvd2⟩

/-- Unpacking reads back the record that was packed, its reserved bits included. -/
theorem unpackCfg_packCfg (c : Cfg) : unpackCfg (packCfg c) = c := by
  obtain ⟨mode, width, mapLen, edge, handshake, rsvd0⟩ := packCfg_cfg0_fields c
  obtain ⟨bitPeriod, rsvd2⟩ := packCfg_cfg2_fields c
  have map : (unpackCfg (packCfg c)).map = c.map :=
    Vector.ext fun p hp => by rw [unpackCfg_map _ _ hp, packCfg_mapw, entryOfWord_word]
  exact Cfg.eq_of_fields (by rw [unpackCfg, mode, modeOfBit_modeBit]) width mapLen map rfl bitPeriod
    (by rw [unpackCfg, edge, edgeOfBit_edgeBit]) handshake rsvd0 rsvd2

/-- CFG0 is put together of its fields without a gap. -/
theorem packCfg_unpackCfg_cfg0 (g : CfgImage) : (packCfg (unpackCfg g)).cfg0 = g.cfg0 := by
  simp only [packCfg, unpackCfg, modeBit_modeOfBit, edgeBit_edgeOfBit, ofBool_getLsbD]
  iterate 5 rw [BitVec.extractLsb'_append_extractLsb'_eq_extractLsb' (by decide)]
  exact BitVec.extractLsb'_eq_self

theorem packCfg_unpackCfg_cfg2 (g : CfgImage) : (packCfg (unpackCfg g)).cfg2 = g.cfg2 := by
  simp only [packCfg, unpackCfg]
  rw [BitVec.extractLsb'_append_extractLsb'_eq_extractLsb' (by decide)]
  exact BitVec.extractLsb'_eq_self

/-- Packing gives back the image that was unpacked. -/
theorem packCfg_unpackCfg (g : CfgImage) : packCfg (unpackCfg g) = g := by
  have mapw : (packCfg (unpackCfg g)).mapw = g.mapw :=
    Vector.ext fun p hp => by rw [packCfg_mapw _ _ hp, unpackCfg_map, word_entryOfWord]
  have cfg0 := packCfg_unpackCfg_cfg0 g
  have cfg2 := packCfg_unpackCfg_cfg2 g
  have cfg1 : (packCfg (unpackCfg g)).cfg1 = g.cfg1 := rfl
  generalize packCfg (unpackCfg g) = image at *
  cases image
  cases g
  simp only [CfgImage.mk.injEq]
  exact ⟨cfg0, cfg1, cfg2, mapw⟩

/-- A reserved bit that is set makes the record invalid (44_top_control.md R250, condition 6). -/
theorem not_valid_of_reserved {p : Platform} {g : CfgImage}
    (h : g.cfg0.extractLsb' 13 19 ≠ 0#19 ∨ g.cfg2.extractLsb' 16 16 ≠ 0#16 ∨
      ∃ (k : Nat) (h : k < 16), (g.mapw[k]).extractLsb' 20 12 ≠ 0#12) : ¬ (unpackCfg g).Valid p := by
  intro valid
  obtain ⟨-, -, -, -, -, -, rsvd0, rsvd2, entries⟩ := (valid_iff _ _).1 valid
  rcases h with cfg0 | cfg2 | ⟨k, hk, entry⟩
  · exact cfg0 rsvd0
  · exact cfg2 rsvd2
  · refine entry (entries (entryOfWord g.mapw[k]) ?_)
    rw [← unpackCfg_map g k hk]
    simp

/-- Settles O5: the fields of each word, both inverses, and the reserved bits by condition 6. -/
theorem configImageLayout : Obligations.ConfigImageLayout := by
  refine ⟨unpackCfg_packCfg, packCfg_unpackCfg, ?_, fun _ _ => not_valid_of_reserved⟩
  rintro c g rfl
  obtain ⟨mode, width, mapLen, edge, handshake, -⟩ := packCfg_cfg0_fields c
  obtain ⟨bitPeriod, -⟩ := packCfg_cfg2_fields c
  refine ⟨mode.trans (modeBit_eq_decide _), width, mapLen, edge.trans (edgeBit_eq_decide _), handshake, rfl, bitPeriod,
    fun p hp => ?_⟩
  obtain ⟨id, idx, -⟩ := word_fields c.map[p]
  rw [packCfg_mapw]
  exact ⟨id, idx⟩

end Sys2Proof.Machine
end

section
/-! PROOFS. One running tick: the handoff and the handshake line by the word that a reader completes, what the samples write,
and what an abort, a faulted read and a busy sink leave alone (60_exceptions.md R281, R286, 43_state_differ.md R219). -/

namespace Sys2Proof.Machine

/-! ### The handoff by the word completed, 43_state_differ.md R210 to R215 -/

theorem take_eq_decide (s : State) : take s = decide (s.now.sdState = sdsIdle ∧ s.now.handFull = true) := by
  rw [Bool.eq_iff_iff, take_iff, decide_eq_true_eq]

section
variable {s : State} {w : ButtonWord}

/-- A completed word stands on the wires in front of HAND. -/
theorem wires_of_completed (hw : WF s.cfg s.now) (h : completedWord s = some w) :
    (beforeHand s).sig.write = true ∧ (beforeHand s).sig.hwWord = w := by
  obtain ⟨write, word⟩ | ⟨-, word⟩ := word_cases hw
  · exact ⟨write, Option.some.inj (word.symm.trans h)⟩
  · rw [h] at word
    cases word

theorem write_of_none (hw : WF s.cfg s.now) (h : completedWord s = none) : (beforeHand s).sig.write = false := by
  obtain ⟨-, word⟩ | ⟨noWrite, -⟩ := word_cases hw
  · rw [h] at word
    cases word
  · exact noWrite

/-- HAND_WRITE, HAND_TAKE_WRITE: the word enters. -/
theorem hand_enter_tick (hw : WF s.cfg s.now) (h : completedWord s = some w)
    (room : s.now.handFull = false ∨ take s = true) :
    (afterTick s).nxt.handFull = true ∧ (afterTick s).nxt.handWord = w ∧ (afterTick s).nxt.overrun = s.now.overrun := by
  obtain ⟨write, word⟩ := wires_of_completed hw h
  rw [tick_handFull, tick_handWord, tick_overrun, write, word]
  refine ⟨if_pos rfl, if_pos ⟨rfl, room⟩, ?_⟩
  rcases room with empty | taken
  · simp [empty]
  · simp [taken]

/-- HAND_OVERRUN: the word is dropped. -/
theorem hand_overrun_tick (hw : WF s.cfg s.now) (h : completedWord s = some w) (full : s.now.handFull = true)
    (held : take s = false) :
    (afterTick s).nxt.handFull = true ∧ (afterTick s).nxt.handWord = s.now.handWord ∧
      (afterTick s).nxt.overrun = true := by
  obtain ⟨write, -⟩ := wires_of_completed hw h
  rw [tick_handFull, tick_handWord, tick_overrun, write, full, held]
  simp

/-- HAND_NOP, HAND_TAKE: no word comes. -/
theorem hand_none_tick (hw : WF s.cfg s.now) (h : completedWord s = none) :
    (afterTick s).nxt.handFull = (s.now.handFull && !take s) ∧ (afterTick s).nxt.handWord = s.now.handWord ∧
      (afterTick s).nxt.overrun = s.now.overrun := by
  rw [handFull_tick_of_none hw h, tick_handWord, tick_overrun, write_of_none hw h]
  simp

end

/-- Settles O34: the three cases by the word completed. -/
theorem handoffTick : Obligations.HandoffTick := by
  rintro s t running h taken rfl
  rw [step_running s running] at h
  obtain rfl := Host.Outcome.next.inj h
  obtain ⟨-, -, -, hw⟩ := running
  rw [← take_eq_decide]
  exact ⟨fun w word room => hand_enter_tick hw word room, fun w word full held => hand_overrun_tick hw word full held,
    fun word => hand_none_tick hw word⟩

/-! ### The word completed, and the handshake line, 42_async_reader.md R190, R191 -/

theorem completedWord_isSome_iff (s : State) :
    (completedWord s).isSome = true ↔ (s.now.bsBusy = true ∧ s.now.bsRem = 1#16 ∧ s.input.abort = false) ∧
      (s.now.ssrPhase = phClkTail ∨ (s.now.afrSampling = true ∧ s.now.afrBit.toNat = s.cfg.w - 1)) := by
  unfold completedWord
  split_ifs with fire tail last
  · simp [fire, tail]
  · simp [fire, last]
  · simp only [Option.isSome_none, Bool.false_eq_true, false_iff]
    tauto
  · simp [fire]

theorem completedWord_of_abort {s : State} (abort : s.input.abort = true) : completedWord s = none := by
  rw [completedWord, if_neg fun fire => Bool.false_ne_true (fire.2.2.symm.trans abort)]

/-- In ASYNC mode a word is completed by the last sample alone. -/
theorem completedWord_isSome_async {s : State} (hm : s.cfg.mode = .async) (hw : WF s.cfg s.now)
    (sampling : s.now.afrSampling = true) :
    (completedWord s).isSome = true ↔
      s.input.abort = false ∧ s.now.bsRem = 1#16 ∧ s.now.afrBit.toNat = s.cfg.w - 1 := by
  obtain ⟨busy, -⟩ := afr_delay_runs hm hw sampling
  obtain ⟨idle, -⟩ := hw.mode.2 hm
  have notTail : phIdle ≠ phClkTail := by decide
  rw [completedWord_isSome_iff, idle]
  simp only [busy, sampling, notTail, false_or, true_and]
  tauto

/-- SYNC toggles with the frame that the AFR completes under HANDSHAKE. -/
theorem syncOut_tick {s : State} (hw : WF s.cfg s.now) :
    (afterTick s).nxt.syncOut =
      (s.now.syncOut ^^ (s.cfg.handshake && s.now.afrSampling && (completedWord s).isSome)) := by
  cases hm : s.cfg.mode with
  | sync =>
    obtain ⟨notSampling, -⟩ := hw.mode.1 hm
    have line : (afterTick s).nxt.syncOut = (beforeHand s).nxt.syncOut := by simp [afterTick_eq]
    rw [line, beforeHand_eq, sync_afr hm hw, beforeAfr_syncOut, notSampling]
    simp
  | async =>
    have line : (afterTick s).nxt.syncOut = (afrNext s).sync := congrArg AfrView.sync (async_tick hm hw)
    rw [line]
    cases sampling : s.now.afrSampling with
    | false =>
      have kept : (afrNext s).sync = s.now.syncOut := by
        unfold afrNext
        rw [sampling, if_pos rfl]
        split_ifs <;> rfl
      simp [kept]
    | true =>
      have word := completedWord_isSome_async hm hw sampling
      by_cases completes : s.input.abort = false ∧ s.now.bsRem = 1#16 ∧ s.now.afrBit.toNat = s.cfg.w - 1
      · obtain ⟨abort, last, full⟩ := completes
        rw [word.2 ⟨abort, last, full⟩, afrNext_of_finish abort sampling last full]
        cases s.cfg.handshake <;> simp
      · have none : (completedWord s).isSome = false := Bool.eq_false_of_not_eq_true (mt word.1 completes)
        have kept : (afrNext s).sync = s.now.syncOut := by
          cases abort : s.input.abort with
          | true => simp [afrNext, abort, afrView]
          | false =>
            by_cases last : s.now.bsRem = 1#16
            · have more : s.now.afrBit.toNat ≠ s.cfg.w - 1 := fun full => completes ⟨abort, last, full⟩
              rw [afrNext_of_sample abort sampling last more]
              rfl
            · simp [afrNext, abort, sampling, last, afrView]
        simp [kept, none]

/-- Settles O36. -/
theorem handshakeTogglesOncePerFrame : Obligations.HandshakeTogglesOncePerFrame := by
  intro s t running h
  rw [step_running s running] at h
  obtain rfl := Host.Outcome.next.inj h
  obtain ⟨-, -, -, hw⟩ := running
  exact syncOut_tick hw

/-! ### The samples, 41_sync_reader.md R160, 42_async_reader.md R189, R190 -/

/-- In the phases that sample the mode is SYNC: in ASYNC mode the SSR is in IDLE (10_state.md R47, condition 8). -/
theorem sync_of_samples {s : State} (hw : WF s.cfg s.now)
    (phase : s.now.ssrPhase = phSettle ∨ s.now.ssrPhase = phClkLow) : s.cfg.mode = .sync := by
  cases hm : s.cfg.mode with
  | sync => rfl
  | async =>
    obtain ⟨idle, -⟩ := hw.mode.2 hm
    rw [idle] at phase
    exact absurd phase (by decide)

/-- While the AFR samples the mode is ASYNC (10_state.md R47, condition 8). -/
theorem async_of_sampling {s : State} (hw : WF s.cfg s.now) (sampling : s.now.afrSampling = true) :
    s.cfg.mode = .async := by
  cases hm : s.cfg.mode with
  | sync => exact absurd ((hw.mode.1 hm).1.symm.trans sampling) Bool.false_ne_true
  | async => rfl

/-- The registers of the SSR after a sample. -/
theorem ssr_sample_tick {s : State} (hr : s.Running) (abort : s.input.abort = false)
    (phase : s.now.ssrPhase = phSettle ∨ s.now.ssrPhase = phClkLow) (last : s.now.bsRem = 1#16) :
    (afterTick s).nxt.ssrPhase = phClkHigh ∧ (afterTick s).nxt.ssrBit.toNat = s.now.ssrBit.toNat + 1 ∧
      (afterTick s).nxt.ssrAcc =
        orBit s.now.ssrAcc (!s.input.dataFault && !s.input.dataIn) s.now.ssrBit.toNat := by
  obtain ⟨-, -, valid, hw⟩ := hr
  have view := (sync_tick (sync_of_samples hw phase) hw).trans (ssrNext_of_sample abort phase last)
  obtain ⟨nextPhase, bit, acc, -⟩ := ssr_regs_of_view view
  obtain ⟨-, w16⟩ := width_bounds valid
  refine ⟨nextPhase, ?_, ?_⟩
  · rw [bit, toNat_bit_succ (ssrBit_lt_of_samples valid hw phase) w16]
  · rw [acc, capture_eq]
    cases s.input.dataFault <;> simp

/-- The registers of the AFR after a sample that is not the last. -/
theorem afr_sample_tick {s : State} (hr : s.Running) (abort : s.input.abort = false)
    (sampling : s.now.afrSampling = true) (last : s.now.bsRem = 1#16) (more : s.now.afrBit.toNat < s.cfg.w - 1) :
    (afterTick s).nxt.afrSampling = true ∧ (afterTick s).nxt.afrBit.toNat = s.now.afrBit.toNat + 1 ∧
      completedWord s = none ∧
      (afterTick s).nxt.afrAcc = orBit s.now.afrAcc (!s.input.dataFault && s.input.dataIn) s.now.afrBit.toNat := by
  obtain ⟨-, -, valid, hw⟩ := hr
  have hm := async_of_sampling hw sampling
  have view := (async_tick hm hw).trans (afrNext_of_sample abort sampling last more.ne)
  obtain ⟨still, bit, acc, -⟩ := afr_regs_of_view view
  obtain ⟨-, w16⟩ := width_bounds valid
  refine ⟨still.trans sampling, ?_, ?_, ?_⟩
  · rw [bit, toNat_bit_succ (w := s.cfg.w) (by omega) w16]
  · rw [← Option.not_isSome_iff_eq_none, completedWord_isSome_async hm hw sampling]
    omega
  · rw [acc, capture_eq, Bool.and_false, Bool.false_or]

/-- The last sample of the AFR completes the word. -/
theorem afr_finish_tick {s : State} (hr : s.Running) (abort : s.input.abort = false)
    (sampling : s.now.afrSampling = true) (last : s.now.bsRem = 1#16) (full : s.now.afrBit.toNat = s.cfg.w - 1) :
    (afterTick s).nxt.afrSampling = false ∧
      completedWord s =
        some (orBit s.now.afrAcc (!s.input.dataFault && s.input.dataIn) s.now.afrBit.toNat) := by
  obtain ⟨-, -, -, hw⟩ := hr
  have hm := async_of_sampling hw sampling
  have view := (async_tick hm hw).trans (afrNext_of_finish abort sampling last full)
  obtain ⟨idle, -⟩ := afr_regs_of_view view
  refine ⟨idle, ?_⟩
  rw [completedWord_of_afr hm hw sampling last full abort, capture_eq, Bool.and_false, Bool.false_or, full]

/-- The bits of a word after a sample. -/
theorem orBit_getLsbD_eq_ite (acc : ButtonWord) (b : Bool) {i : Nat} (hi : i < 16) (j : Nat) :
    (orBit acc b i).getLsbD j = if j = i then acc.getLsbD j || b else acc.getLsbD j := by
  rw [orBit_getLsbD _ _ _ _ hi]
  by_cases same : j = i <;> simp [same]

/-- The bit counts of the readers while they sample. -/
theorem ssrBit_lt_16 {s : State} (hr : s.Running) (phase : s.now.ssrPhase = phSettle ∨ s.now.ssrPhase = phClkLow) :
    s.now.ssrBit.toNat < 16 := by
  obtain ⟨-, -, valid, hw⟩ := hr
  have below := ssrBit_lt_of_samples valid hw phase
  obtain ⟨-, w16⟩ := width_bounds valid
  omega

theorem afrBit_lt_16 {s : State} (hr : s.Running) (sampling : s.now.afrSampling = true) : s.now.afrBit.toNat < 16 := by
  obtain ⟨-, -, valid, hw⟩ := hr
  obtain ⟨-, -, request⟩ := hw.request
  obtain ⟨-, -, range⟩ := request sampling
  obtain ⟨w11, w16⟩ := width_bounds valid
  omega

/-- Settles O40. -/
theorem syncSampleWritesItsBit : Obligations.SyncSampleWritesItsBit := by
  intro s t running h abort phase last
  rw [step_running s running] at h
  obtain rfl := Host.Outcome.next.inj h
  obtain ⟨nextPhase, bit, acc⟩ := ssr_sample_tick running abort phase last
  refine ⟨bit, nextPhase, fun i _ => ?_⟩
  rw [tickBoundary_now, acc, orBit_getLsbD_eq_ite _ _ (ssrBit_lt_16 running phase)]

/-- Settles O41. -/
theorem asyncSampleWritesItsBit : Obligations.AsyncSampleWritesItsBit := by
  intro s t running h abort sampling last
  rw [step_running s running] at h
  obtain rfl := Host.Outcome.next.inj h
  have inWord := afrBit_lt_16 running sampling
  constructor
  · intro more
    obtain ⟨still, bit, none, acc⟩ := afr_sample_tick running abort sampling last more
    refine ⟨still, bit, none, fun i _ => ?_⟩
    rw [tickBoundary_now, acc, orBit_getLsbD_eq_ite _ _ inWord]
  · intro full
    obtain ⟨idle, word⟩ := afr_finish_tick running abort sampling last full
    exact ⟨idle, _, word, fun i _ => orBit_getLsbD_eq_ite _ _ inWord i⟩

/-! ### No accumulator has a bit that is not captured yet, 41_sync_reader.md R160 -/

/-- The SSR's tick keeps its accumulator within its bit count. -/
theorem ssrNext_fits {s : State} (hr : s.Running) (h : FitsIn s.now.ssrBit.toNat s.now.ssrAcc) :
    FitsIn (ssrNext s).bit.toNat (ssrNext s).acc := by
  have zero (n : Nat) : FitsIn n 0#16 := fitsIn_zero n
  unfold ssrNext
  split_ifs with abort idle strobe more latch high full tail
  · exact zero _
  · exact zero _
  · exact h
  · exact h
  · exact h
  · exact h
  · exact h
  · exact zero _
  · obtain ⟨-, -, valid, hw⟩ := hr
    have samples : s.now.ssrPhase = phSettle ∨ s.now.ssrPhase = phClkLow := by
      have phase := hw.phase
      tauto
    have below := ssrBit_lt_of_samples valid hw samples
    obtain ⟨-, w16⟩ := width_bounds valid
    simp only
    rw [toNat_bit_succ below w16]
    exact fitsIn_orBit_succ h _ (by omega)

/-- The AFR's tick keeps its accumulator within its bit count. -/
theorem afrNext_fits {s : State} (hr : s.Running) (h : FitsIn s.now.afrBit.toNat s.now.afrAcc) :
    FitsIn (afrNext s).bit.toNat (afrNext s).acc := by
  have zero (n : Nat) : FitsIn n 0#16 := fitsIn_zero n
  unfold afrNext
  split_ifs with abort idle edge more last handshake
  · exact zero _
  · exact zero _
  · exact h
  · exact h
  · exact zero _
  · exact zero _
  · have below := afrBit_lt_16 hr (Bool.eq_true_of_not_eq_false idle)
    simp only
    rw [toNat_bit_succ (w := 16) below le_rfl]
    exact fitsIn_orBit_succ h _ below

theorem accumulatorsOk_tick {s : State} (hr : s.Running) (h : s.AccumulatorsOk) :
    (tickBoundary (afterTick s)).AccumulatorsOk := by
  obtain ⟨ssr, afr⟩ := h
  have ⟨_, _, _, hw⟩ := hr
  simp only [State.AccumulatorsOk, tickBoundary_now]
  cases hm : s.cfg.mode with
  | sync =>
    obtain ⟨-, bit, acc, -⟩ := ssr_regs_of_view (sync_tick hm hw)
    obtain ⟨-, -, noAcc⟩ := sync_afr_idle hm hw
    rw [bit, acc, noAcc]
    exact ⟨ssrNext_fits hr ssr, fitsIn_zero _⟩
  | async =>
    obtain ⟨-, bit, acc, -⟩ := afr_regs_of_view (async_tick hm hw)
    obtain ⟨-, -, noAcc⟩ := async_ssr_idle hm hw
    rw [bit, acc, noAcc]
    exact ⟨fitsIn_zero _, afrNext_fits hr afr⟩

theorem accumulatorsOk_of_reset {s : State} (h : s.now = Regs.reset s.cfg) : s.AccumulatorsOk := by
  rw [State.AccumulatorsOk, h]
  exact ⟨fitsIn_zero _, fitsIn_zero _⟩

theorem accumulatorsOk_step {s t : State} (h : s.AccumulatorsOk) (hs : step s = .next t) : t.AccumulatorsOk := by
  obtain ⟨-, ⟨-, rfl⟩ | ⟨-, -, rfl⟩ | ⟨running, rfl⟩⟩ := step_cases hs
  · exact accumulatorsOk_of_reset rfl
  · exact accumulatorsOk_of_reset rfl
  · exact accumulatorsOk_tick running h

/-- Settles O59: the invariant at reset and by a step, and with it every OR of a sample is a write. -/
theorem samplesWriteABitThatWasZero : Obligations.SamplesWriteABitThatWasZero := by
  refine ⟨fun p c => accumulatorsOk_of_reset rfl, fun s t _ ok hs => accumulatorsOk_step ok hs, ?_⟩
  rintro s t running ⟨ssrOk, afrOk⟩ h abort last
  rw [step_running s running] at h
  obtain rfl := Host.Outcome.next.inj h
  refine ⟨fun phase => ?_, fun sampling more => ?_, fun sampling full => ?_⟩
  · obtain ⟨-, -, acc⟩ := ssr_sample_tick running abort phase last
    rw [tickBoundary_now, acc]
    exact ⟨(fitsIn_iff _ _).1 ssrOk _ le_rfl, orBit_writes ssrOk _ (ssrBit_lt_16 running phase)⟩
  · obtain ⟨-, -, -, acc⟩ := afr_sample_tick running abort sampling last more
    rw [tickBoundary_now, acc]
    exact ⟨(fitsIn_iff _ _).1 afrOk _ le_rfl, orBit_writes afrOk _ (afrBit_lt_16 running sampling)⟩
  · obtain ⟨-, word⟩ := afr_finish_tick running abort sampling last full
    exact ⟨(fitsIn_iff _ _).1 afrOk _ le_rfl, _, word, orBit_writes afrOk _ (afrBit_lt_16 running sampling)⟩

end Sys2Proof.Machine
end

section
/-! PROOFS. What two ticks share that differ in an input only: the tick as a function of what its units read, and from that
what an abort leaves to go on, that a faulted level is never used, when DATA is read, and that no reader waits for the sink
(60_exceptions.md R281, R286, 41_sync_reader.md R158, 43_state_differ.md R219). -/

namespace Sys2Proof.Machine

/-! ### A tick by what its units read, 44_top_control.md R255 -/

/-- Two states that stand in the same tick of the same machine, whatever the inputs are but for `sink_ready`. -/
structure SameTick (a b : State) : Prop where
  plat : a.plat = b.plat
  cfg : a.cfg = b.cfg
  now : a.now = b.now
  tick : a.tick = b.tick
  trace : a.trace = b.trace
  ready : a.input.sinkReady = b.input.sinkReady

section
variable {a b : State}

/-- The StateDiffer and the trace depend on no input but `sink_ready`. -/
theorem SameTick.sd (h : SameTick a b) :
    (afterTick a).nxt.sdState = (afterTick b).nxt.sdState ∧ (afterTick a).nxt.sdCur = (afterTick b).nxt.sdCur ∧
      (afterTick a).nxt.sdChg = (afterTick b).nxt.sdChg ∧ (afterTick a).nxt.sdPos = (afterTick b).nxt.sdPos ∧
      (afterTick a).nxt.prevWord = (afterTick b).nxt.prevWord ∧ (afterTick a).trace = (afterTick b).trace := by
  have hit := chgHit_congr h.now h.cfg
  have last := lastEntry_congr h.now h.cfg
  have report := currentReport_congr h.now h.cfg
  simp only [tick_sdState, tick_sdCur, tick_sdChg, tick_sdPos, tick_prevWord, tick_trace, hit, last, report, h.now, h.cfg,
    h.tick, h.trace, h.ready, and_self]

theorem SameTick.pollCnt (h : SameTick a b) : (afterTick a).nxt.pollCnt = (afterTick b).nxt.pollCnt := by
  simp only [tick_pollCnt, h.now, h.cfg]

theorem SameTick.wf (h : SameTick a b) (hw : WF b.cfg b.now) : WF a.cfg a.now := by rwa [h.cfg, h.now]

/-- The handoff depends besides on the word completed. -/
theorem SameTick.hand (h : SameTick a b) (hw : WF b.cfg b.now) (word : completedWord a = completedWord b) :
    (afterTick a).nxt.handFull = (afterTick b).nxt.handFull ∧ (afterTick a).nxt.handWord = (afterTick b).nxt.handWord ∧
      (afterTick a).nxt.overrun = (afterTick b).nxt.overrun := by
  have taken : take a = take b := take_congr h.now
  cases wordB : completedWord b with
  | none =>
    obtain ⟨full, hand, overrun⟩ := hand_none_tick hw wordB
    obtain ⟨full', hand', overrun'⟩ := hand_none_tick (h.wf hw) (word.trans wordB)
    rw [full, hand, overrun, full', hand', overrun', h.now, taken]
    exact ⟨rfl, rfl, rfl⟩
  | some w =>
    by_cases room : b.now.handFull = false ∨ take b = true
    · obtain ⟨full, hand, overrun⟩ := hand_enter_tick hw wordB room
      obtain ⟨full', hand', overrun'⟩ :=
        hand_enter_tick (h.wf hw) (word.trans wordB) (by rwa [h.now, taken])
      rw [full, hand, overrun, full', hand', overrun', h.now]
      exact ⟨rfl, rfl, rfl⟩
    · simp only [not_or, Bool.not_eq_false, Bool.not_eq_true] at room
      obtain ⟨held, notTaken⟩ := room
      obtain ⟨full, hand, overrun⟩ := hand_overrun_tick hw wordB held notTaken
      obtain ⟨full', hand', overrun'⟩ :=
        hand_overrun_tick (h.wf hw) (word.trans wordB) (by rwa [h.now]) (by rwa [taken])
      rw [full, hand, overrun, full', hand', overrun', h.now]
      exact ⟨rfl, rfl, rfl⟩

end

/-! ### The readers by what they read -/

section
variable {a b : State}

/-- The SSR's tick depends on its own registers, the strobe, the delays and `abort`, and on DATA only where it samples. -/
theorem ssrNext_congr (phase : WfPhase b.now) (view : ssrView a.now = ssrView b.now) (plat : a.plat = b.plat)
    (cfg : a.cfg = b.cfg) (strobe : strobes a = strobes b) (abort : a.input.abort = b.input.abort)
    (level : (b.now.ssrPhase = phSettle ∨ b.now.ssrPhase = phClkLow) ∧ b.now.bsRem = 1#16 →
      capture a.input.dataIn a.input.dataFault true = capture b.input.dataIn b.input.dataFault true) :
    ssrNext a = ssrNext b := by
  have fields := view
  simp only [ssrView, SsrView.mk.injEq] at fields
  obtain ⟨ssrPhase, ssrBit, ssrAcc, -, -, rem, -⟩ := fields
  by_cases samples : (b.now.ssrPhase = phSettle ∨ b.now.ssrPhase = phClkLow) ∧ b.now.bsRem = 1#16
  · simp only [ssrNext, view, ssrPhase, ssrBit, ssrAcc, rem, plat, cfg, strobe, abort, level samples]
  · simp only [ssrNext, view, ssrPhase, ssrBit, ssrAcc, rem, plat, cfg, strobe, abort]
    split_ifs
    any_goals rfl
    exact absurd (by tauto) samples

/-- The AFR's tick depends on its own registers, the start edge, the record and `abort`, and on DATA where it samples. -/
theorem afrNext_congr (view : afrView a.now = afrView b.now) (cfg : a.cfg = b.cfg) (edge : seesEdge a = seesEdge b)
    (abort : a.input.abort = b.input.abort)
    (level : capture a.input.dataIn a.input.dataFault false = capture b.input.dataIn b.input.dataFault false) :
    afrNext a = afrNext b := by
  have fields := view
  simp only [afrView, AfrView.mk.injEq] at fields
  obtain ⟨sampling, bit, acc, sync, -, -, rem, -⟩ := fields
  simp only [afrNext, view, sampling, bit, acc, sync, rem, cfg, edge, abort, level]

/-- The word completed depends on the readers' registers, the record and `abort`, and on DATA in ASYNC mode. -/
theorem completedWord_congr (ssr : ssrView a.now = ssrView b.now) (afr : afrView a.now = afrView b.now)
    (cfg : a.cfg = b.cfg) (abort : a.input.abort = b.input.abort)
    (level : b.now.afrSampling = true →
      capture a.input.dataIn a.input.dataFault b.now.bsFb = capture b.input.dataIn b.input.dataFault b.now.bsFb) :
    completedWord a = completedWord b := by
  simp only [ssrView, SsrView.mk.injEq] at ssr
  obtain ⟨phase, -, acc, busy, -, rem, fb⟩ := ssr
  simp only [afrView, AfrView.mk.injEq] at afr
  obtain ⟨sampling, bit, afrAcc, -, -, -, -, -⟩ := afr
  cases hs : b.now.afrSampling with
  | false => simp only [completedWord, phase, acc, busy, rem, sampling, hs, abort, cfg, Bool.false_eq_true, false_and,
      if_false]
  | true => simp only [completedWord, phase, acc, busy, rem, fb, sampling, bit, afrAcc, abort, cfg, level hs]

/-- Two ticks leave the same readers, the BitSampler and SYNC among them, where the reader of the mode goes on alike. -/
theorem views_of_next (hwa : WF a.cfg a.now) (hwb : WF b.cfg b.now) (cfg : a.cfg = b.cfg)
    (sync : b.cfg.mode = .sync → ssrNext a = ssrNext b) (async : b.cfg.mode = .async → afrNext a = afrNext b)
    (line : (afterTick a).nxt.syncOut = (afterTick b).nxt.syncOut) :
    ssrView (afterTick a).nxt = ssrView (afterTick b).nxt ∧ afrView (afterTick a).nxt = afrView (afterTick b).nxt := by
  cases hm : b.cfg.mode with
  | sync =>
    have ma : a.cfg.mode = .sync := by rw [cfg, hm]
    have ssr : ssrView (afterTick a).nxt = ssrView (afterTick b).nxt := by
      rw [sync_tick ma hwa, sync_tick hm hwb, sync hm]
    have fields := ssr
    simp only [ssrView, SsrView.mk.injEq] at fields
    obtain ⟨-, -, -, busy, kind, rem, fb⟩ := fields
    obtain ⟨idleA, bitA, accA⟩ := sync_afr_idle ma hwa
    obtain ⟨idleB, bitB, accB⟩ := sync_afr_idle hm hwb
    exact ⟨ssr, by simp only [afrView, idleA, idleB, bitA, bitB, accA, accB, busy, kind, rem, fb, line]⟩
  | async =>
    have ma : a.cfg.mode = .async := by rw [cfg, hm]
    have afr : afrView (afterTick a).nxt = afrView (afterTick b).nxt := by
      rw [async_tick ma hwa, async_tick hm hwb, async hm]
    have fields := afr
    simp only [afrView, AfrView.mk.injEq] at fields
    obtain ⟨-, -, -, -, busy, kind, rem, fb⟩ := fields
    obtain ⟨idleA, bitA, accA⟩ := async_ssr_idle ma hwa
    obtain ⟨idleB, bitB, accB⟩ := async_ssr_idle hm hwb
    exact ⟨by simp only [ssrView, idleA, idleB, bitA, bitB, accA, accB, busy, kind, rem, fb], afr⟩

/-- SYNC after the tick depends on the AFR and the word completed. -/
theorem syncOut_congr (hwa : WF a.cfg a.now) (hwb : WF b.cfg b.now) (cfg : a.cfg = b.cfg)
    (afr : afrView a.now = afrView b.now) (word : completedWord a = completedWord b) :
    (afterTick a).nxt.syncOut = (afterTick b).nxt.syncOut := by
  simp only [afrView, AfrView.mk.injEq] at afr
  obtain ⟨sampling, -, -, sync, -⟩ := afr
  rw [syncOut_tick hwa, syncOut_tick hwb, cfg, sampling, sync, word]

end

/-- Two records with the same readers, poll timer, handoff and StateDiffer differ in `edge_prev` at most. -/
theorem regs_eq_but_edgePrev {r r' : Regs} (ssr : ssrView r = ssrView r') (afr : afrView r = afrView r')
    (poll : r.pollCnt = r'.pollCnt)
    (hand : r.handFull = r'.handFull ∧ r.handWord = r'.handWord ∧ r.overrun = r'.overrun)
    (sd : r.sdState = r'.sdState ∧ r.sdCur = r'.sdCur ∧ r.sdChg = r'.sdChg ∧ r.sdPos = r'.sdPos ∧
      r.prevWord = r'.prevWord) : { r with edgePrev := false } = { r' with edgePrev := false } := by
  simp only [ssrView, SsrView.mk.injEq] at ssr
  simp only [afrView, AfrView.mk.injEq] at afr
  obtain ⟨phase, ssrBit, ssrAcc, busy, kind, rem, fb⟩ := ssr
  obtain ⟨sampling, afrBit, afrAcc, sync, -⟩ := afr
  obtain ⟨full, word, overrun⟩ := hand
  obtain ⟨state, cur, chg, pos, prev⟩ := sd
  simp only [phase, ssrBit, ssrAcc, busy, kind, rem, fb, sampling, afrBit, afrAcc, sync, full, word, overrun, state, cur,
    chg, pos, prev, poll]

/-- Two ticks of the same machine, alike in `abort` and `sink_ready`, leave the same but for `edge_prev`, where the readers
read the same of DATA. -/
theorem SameTick.regs {a b : State} (h : SameTick a b) (hw : WF b.cfg b.now) (abort : a.input.abort = b.input.abort)
    (ssrLevel : (b.now.ssrPhase = phSettle ∨ b.now.ssrPhase = phClkLow) ∧ b.now.bsRem = 1#16 →
      capture a.input.dataIn a.input.dataFault true = capture b.input.dataIn b.input.dataFault true)
    (afrLevel : b.cfg.mode = .async → seesEdge a = seesEdge b ∧
      ∀ fb, capture a.input.dataIn a.input.dataFault fb = capture b.input.dataIn b.input.dataFault fb) :
    { (afterTick a).nxt with edgePrev := false } = { (afterTick b).nxt with edgePrev := false } ∧
      (afterTick a).trace = (afterTick b).trace := by
  have hwa := h.wf hw
  have ssr : ssrView a.now = ssrView b.now := by rw [h.now]
  have afr : afrView a.now = afrView b.now := by rw [h.now]
  have strobe : strobes a = strobes b := by simp only [strobes, h.now, h.cfg]
  have word : completedWord a = completedWord b :=
    completedWord_congr ssr afr h.cfg abort fun sampling => (afrLevel (async_of_sampling hw sampling)).2 _
  have line := syncOut_congr hwa hw h.cfg afr word
  obtain ⟨ssr', afr'⟩ := views_of_next hwa hw h.cfg
    (fun _ => ssrNext_congr hw.phase ssr h.plat h.cfg strobe abort ssrLevel)
    (fun hm => afrNext_congr afr h.cfg (afrLevel hm).1 abort ((afrLevel hm).2 _)) line
  obtain ⟨state, cur, chg, pos, prev, trace⟩ := h.sd
  exact ⟨regs_eq_but_edgePrev ssr' afr' h.pollCnt (h.hand hw word) ⟨state, cur, chg, pos, prev⟩, trace⟩

/-! ### A faulted level is never used, 40_bit_sampler.md R131 -/

theorem regs_eq_of_edgePrev {r r' : Regs} (rest : { r with edgePrev := false } = { r' with edgePrev := false })
    (edge : r.edgePrev = r'.edgePrev) : r = r' := by
  cases r
  cases r'
  simp_all

theorem capture_of_fault {i : Inputs} (fault : i.dataFault = true) (fb : Bool) : capture i.dataIn i.dataFault fb = fb := by
  rw [capture, fault, if_pos rfl]

theorem seesEdge_of_fault {s : State} (fault : s.input.dataFault = true) : seesEdge s = false := by
  rw [seesEdge, fault, if_pos rfl]

/-- Two faulted ticks that are alike in the other inputs leave the same. -/
theorem SameTick.of_faults {a b : State} (h : SameTick a b) (hw : WF b.cfg b.now)
    (abort : a.input.abort = b.input.abort) (fa : a.input.dataFault = true) (fb : b.input.dataFault = true) :
    (afterTick a).nxt = (afterTick b).nxt ∧ (afterTick a).trace = (afterTick b).trace := by
  have level (x : Bool) : capture a.input.dataIn a.input.dataFault x = capture b.input.dataIn b.input.dataFault x := by
    rw [capture_of_fault fa, capture_of_fault fb]
  obtain ⟨regs, trace⟩ := h.regs hw abort (fun _ => level true)
    (fun _ => ⟨by rw [seesEdge_of_fault fa, seesEdge_of_fault fb], level⟩)
  refine ⟨regs_eq_of_edgePrev regs ?_, trace⟩
  rw [tick_edgePrev, tick_edgePrev, if_pos fa, if_pos fb, h.now]

/-- What the tick boundary keeps of a state. -/
theorem tickBoundary_congr {x y : State} (plat : x.plat = y.plat) (cfg : x.cfg = y.cfg) (nxt : x.nxt = y.nxt)
    (stim : stimRest x.stim = stimRest y.stim) (tick : x.tick = y.tick) (trace : x.trace = y.trace) :
    tickBoundary x = tickBoundary y := by
  simp only [tickBoundary, plat, cfg, nxt, stim, tick, trace]

/-- The model refuses parameters out of range (44_top_control.md R259). -/
theorem step_outOfRange {s : State} (h : ¬ s.plat.InRange) : step s = .refused .platformOutOfRange := by
  rw [step, if_pos h]

/-- The model refuses a change of the record in a tick with `rst` = 0 (44_top_control.md R259). -/
theorem step_cfgChanged {s : State} (h : s.plat.InRange) (rst : s.input.rst = false) (changed : s.cfgIn ≠ s.cfg) :
    step s = .refused .cfgChangedWithoutReset := by
  rw [step, if_neg (not_not.2 h), if_pos ⟨rst, changed⟩]

/-- Two faulted ticks with the same record presented and the same program after them, alike in the other inputs, have the
same outcome: by the kind of the tick, of which only a running one reads DATA. -/
theorem SameTick.step_of_faults {x y : State} (same : SameTick x y) (cfgIn : x.cfgIn = y.cfgIn)
    (stim : stimRest x.stim = stimRest y.stim) (rst : x.input.rst = y.input.rst) (abort : x.input.abort = y.input.abort)
    (fx : x.input.dataFault = true) (fy : y.input.dataFault = true) : step x = step y := by
  by_cases inRange : y.plat.InRange
  case neg => rw [step_outOfRange inRange, step_outOfRange (by rwa [same.plat])]
  have inRangeX : x.plat.InRange := by rwa [same.plat]
  cases hr : y.input.rst with
  | true =>
    rw [step_reset x inRangeX (rst.trans hr), step_reset y inRange hr]
    exact congrArg _ (tickBoundary_congr same.plat cfgIn (by simp only [cfgIn]) stim same.tick same.trace)
  | false =>
    by_cases held : y.cfgIn = y.cfg
    case neg =>
      rw [step_cfgChanged inRange hr held, step_cfgChanged inRangeX (rst.trans hr) (by rwa [cfgIn, same.cfg])]
    have acceptedY : y.Accepted := ⟨inRange, fun _ => held⟩
    have acceptedX : x.Accepted := ⟨inRangeX, fun _ => by rw [cfgIn, same.cfg, held]⟩
    by_cases valid : y.cfg.Valid y.plat
    case neg =>
      rw [step_inert y acceptedY hr valid, step_inert x acceptedX (rst.trans hr) (by rwa [same.cfg, same.plat])]
      exact congrArg _ (tickBoundary_congr same.plat same.cfg (by simp only [same.cfg]) stim same.tick same.trace)
    have validX : x.cfg.Valid x.plat := by rwa [same.cfg, same.plat]
    by_cases hw : WF y.cfg y.now
    case neg =>
      rw [step_faults y acceptedY hr valid hw,
        step_faults x acceptedX (rst.trans hr) validX (by rwa [same.cfg, same.now])]
    rw [step_running y ⟨acceptedY, hr, valid, hw⟩, step_running x ⟨acceptedX, rst.trans hr, validX, same.wf hw⟩]
    obtain ⟨nxt, trace⟩ := same.of_faults hw abort fx fy
    exact congrArg _ (tickBoundary_congr (by simp [same.plat]) (by simp [same.cfg]) nxt (by simpa using stim)
      (by simp [same.tick]) trace)

/-- One tick with given inputs and record, from a program. -/
def State.withTick (s : State) (i : Inputs) (c : Option Cfg) (rest : List StimRun) : State :=
  { s with stim := ⟨i.toIv, 1, c⟩ :: rest }

theorem withTick_input (s : State) (i : Inputs) (c : Option Cfg) (rest : List StimRun) :
    (s.withTick i c rest).input = i := ofIv_toIv i

theorem withTick_stimRest (s : State) (i : Inputs) (c : Option Cfg) (rest : List StimRun) :
    stimRest (s.withTick i c rest).stim = rest := rfl

/-- Two ticks with inputs alike in `sink_ready` are the same tick of the machine. -/
theorem sameTick_withTick (s : State) {i j : Inputs} (c : Option Cfg) (rest : List StimRun)
    (ready : i.sinkReady = j.sinkReady) : SameTick (s.withTick i c rest) (s.withTick j c rest) :=
  ⟨rfl, rfl, rfl, rfl, rfl, by rw [withTick_input, withTick_input, ready]⟩

/-- Settles O42: the two ticks are the same tick of the machine, and both are faulted. -/
theorem faultedLevelIsNeverUsed : Obligations.FaultedLevelIsNeverUsed := by
  rintro s a b c rest fault rfl
  have inputA := withTick_input s a c rest
  have inputB := withTick_input s { a with dataIn := !a.dataIn } c rest
  have same : SameTick (s.withTick a c rest) (s.withTick { a with dataIn := !a.dataIn } c rest) :=
    sameTick_withTick s c rest rfl
  exact same.step_of_faults rfl rfl (by rw [inputA, inputB]) (by rw [inputA, inputB]) (by rw [inputA, fault])
    (by rw [inputB]; exact fault)

/-! ### When DATA is read in SYNC mode, 41_sync_reader.md R158 -/

/-- A step of a tick with `rst` = 0 and a valid record, taken from a program. -/
theorem running_withTick {s t : State} {i : Inputs} {rest : List StimRun} (valid : s.cfg.Valid s.plat)
    (rst : i.rst = false) (h : step (s.withTick i none rest) = .next t) :
    (s.withTick i none rest).Running ∧ t = tickBoundary (afterTick (s.withTick i none rest)) :=
  running_of_step (by rw [withTick_input, rst]) valid h

/-- Settles O44: two running ticks of one machine that capture nothing leave the same but for `edge_prev`. -/
theorem dataIsReadOnlyInItsCaptureTick : Obligations.DataIsReadOnlyInItsCaptureTick := by
  intro s ta tb a b rest hb hm valid rst noCapture stepA stepB
  have ready : a.sinkReady = b.sinkReady := by rw [hb]
  have abort : a.abort = b.abort := by rw [hb]
  have rstB : b.rst = false := by rw [hb]; exact rst
  have same := sameTick_withTick s none rest ready
  obtain ⟨-, rfl⟩ := running_withTick valid rst stepA
  obtain ⟨⟨-, -, -, hw⟩, rfl⟩ := running_withTick valid rstB stepB
  have notAsync (async : (s.withTick b none rest).cfg.mode = .async) {P : Prop} : P := by
    have mode : s.cfg.mode = .async := async
    rw [hm] at mode
    cases mode
  obtain ⟨regs, trace⟩ := same.regs hw (by rw [withTick_input, withTick_input, abort])
    (fun captures => absurd captures noCapture) (fun async => notAsync async)
  have tick : (afterTick (s.withTick a none rest)).tick = (afterTick (s.withTick b none rest)).tick := by
    simp [same.tick]
  have stim : stimRest (afterTick (s.withTick a none rest)).stim = stimRest (afterTick (s.withTick b none rest)).stim := by
    rw [afterTick_stim, afterTick_stim, withTick_stimRest, withTick_stimRest]
  simp only [tickBoundary, afterTick_plat, afterTick_cfg, same.plat, same.cfg, regs, trace, tick, stim]

/-! ### No reader waits for the sink, 43_state_differ.md R219 -/

/-- Two readers alike are alike to the SSR's and the AFR's tick. -/
theorem views_of_sameReaders {r r' : Regs} (h : SameReaders r r') :
    ssrView r = ssrView r' ∧ afrView r = afrView r' ∧ r.pollCnt = r'.pollCnt ∧ r.edgePrev = r'.edgePrev := by
  obtain ⟨⟨busy, kind, rem, fb⟩, poll, ⟨phase, ssrBit, ssrAcc⟩, edge, sampling, bit, acc, sync⟩ := h
  simp only [ssrView, afrView, busy, kind, rem, fb, phase, ssrBit, ssrAcc, sampling, bit, acc, sync, poll, edge, and_self]

theorem sameReaders_of_views {r r' : Regs} (ssr : ssrView r = ssrView r') (afr : afrView r = afrView r')
    (poll : r.pollCnt = r'.pollCnt) (edge : r.edgePrev = r'.edgePrev) : SameReaders r r' := by
  simp only [ssrView, SsrView.mk.injEq] at ssr
  simp only [afrView, AfrView.mk.injEq] at afr
  obtain ⟨phase, ssrBit, ssrAcc, busy, kind, rem, fb⟩ := ssr
  obtain ⟨sampling, bit, acc, sync, -⟩ := afr
  exact ⟨⟨busy, kind, rem, fb⟩, poll, ⟨phase, ssrBit, ssrAcc⟩, edge, sampling, bit, acc, sync⟩

/-- Inputs that agree but for `sink_ready`. -/
theorem inputs_of_eq_but_ready {i j : Inputs} (h : { i with sinkReady := false } = { j with sinkReady := false }) :
    i.dataIn = j.dataIn ∧ i.dataFault = j.dataFault ∧ i.abort = j.abort := by
  simp only [Inputs.mk.injEq] at h
  obtain ⟨level, fault, -, abort, -⟩ := h
  exact ⟨level, fault, abort⟩

/-- Settles O43: the readers' ticks read no register of the handoff or the StateDiffer, and not `sink_ready`. -/
theorem readersNeverWaitForTheSink : Obligations.ReadersNeverWaitForTheSink := by
  rintro s s' t t' running running' cfg plat readers inputs h h'
  rw [step_running s running] at h
  rw [step_running s' running'] at h'
  obtain rfl := Host.Outcome.next.inj h
  obtain rfl := Host.Outcome.next.inj h'
  obtain ⟨-, -, -, hw⟩ := running
  obtain ⟨-, -, -, hw'⟩ := running'
  obtain ⟨ssr, afr, poll, edge⟩ := views_of_sameReaders readers
  obtain ⟨level, fault, abort⟩ := inputs_of_eq_but_ready inputs
  have strobe : strobes s = strobes s' := by simp only [strobes, cfg, poll]
  have sees : seesEdge s = seesEdge s' := by simp only [seesEdge, cfg, edge, level, fault]
  have word : completedWord s = completedWord s' :=
    completedWord_congr ssr afr cfg abort fun _ => by rw [level, fault]
  obtain ⟨nextSsr, nextAfr⟩ := views_of_next hw hw' cfg
    (fun _ => ssrNext_congr hw'.phase ssr plat cfg strobe abort fun _ => by rw [level, fault])
    (fun _ => afrNext_congr afr cfg sees abort (by rw [level, fault])) (syncOut_congr hw hw' cfg afr word)
  refine sameReaders_of_views nextSsr nextAfr ?_ ?_
  · simp only [tickBoundary_now, tick_pollCnt, cfg, poll]
  · simp only [tickBoundary_now, tick_edgePrev, edge, level, fault]

/-! ### An abort, 60_exceptions.md R286 -/

/-- The readers after an abort: no frame, no delay, and what an idle BitSampler keeps. -/
theorem abort_tick_readers {s : State} (hw : WF s.cfg s.now) (abort : s.input.abort = true) :
    ssrView (afterTick s).nxt = { ssrView s.now with phase := phIdle, bit := 0#5, acc := 0#16, busy := false } ∧
      (afterTick s).nxt.afrSampling = false ∧ (afterTick s).nxt.afrBit = 0#5 ∧ (afterTick s).nxt.afrAcc = 0#16 := by
  cases hm : s.cfg.mode with
  | sync => exact ⟨by rw [sync_tick hm hw, ssrNext, if_pos abort], sync_afr_idle hm hw⟩
  | async =>
    have view : afrView (afterTick s).nxt =
        { afrView s.now with sampling := false, bit := 0#5, acc := 0#16, busy := false } := by
      rw [async_tick hm hw, afrNext, if_pos abort]
    simp only [afrView, AfrView.mk.injEq] at view
    obtain ⟨sampling, bit, acc, -, busy, kind, rem, fb⟩ := view
    obtain ⟨phase, ssrBit, ssrAcc⟩ := async_ssr_idle hm hw
    exact ⟨by simp only [ssrView, phase, ssrBit, ssrAcc, busy, kind, rem, fb], sampling, bit, acc⟩

/-- Settles O33: the readers by their aborted tick, the rest by the tick's equations, which do not read `abort`. -/
theorem abortAbandonsTheFrame : Obligations.AbortAbandonsTheFrame := by
  intro s running abort
  have ⟨_, _, _, hw⟩ := running
  have next := step_running s running
  obtain ⟨view, sampling, afrBit, afrAcc⟩ := abort_tick_readers hw abort
  simp only [ssrView, SsrView.mk.injEq] at view
  obtain ⟨phase, bit, acc, busy, kind, rem, fb⟩ := view
  have noWord := completedWord_of_abort abort
  obtain ⟨full, word, overrun⟩ := hand_none_tick hw noWord
  have line : (afterTick s).nxt.syncOut = s.now.syncOut := by simp [syncOut_tick hw, noWord]
  refine ⟨_, next, busy, kind, rem, fb, phase, bit, acc, sampling, afrBit, afrAcc, tick_pollCnt s, tick_edgePrev s, line,
    overrun, word, ?_, prevWord_tick hw, trace_of_step next, by simp, by simp, ?_⟩
  · rw [tickBoundary_now, full, take_eq_decide]
    cases s.now.handFull <;> simp
  · intro s' hs' running' input
    have same : SameTick s s' := by
      rw [hs'] at input ⊢
      exact ⟨rfl, rfl, rfl, rfl, rfl, by rw [input]⟩
    obtain ⟨state, cur, chg, pos, prev, trace⟩ := same.sd
    refine ⟨_, step_running s' running', state, cur, chg, pos, prev, trace, same.pollCnt, ?_⟩
    simp only [tickBoundary_now, tick_edgePrev, same.now, input]

end Sys2Proof.Machine
end

section
/-! PROOFS. The operations unit by unit: what each unit's vector selects, what each operation leaves, what no operation
writes, and TOP_RUN as the seven units' operations (30_encoding.md R100 to R103, 44_top_control.md R255, R256). -/

namespace Sys2Proof.Machine

/-! ### What a unit's vector selects, 30_encoding.md R102 -/

/-- Settles O18: the selection by the rows of BS, and each operation by its meaning. -/
theorem bitSamplerOperations : Obligations.BitSamplerOperations := by
  intro s
  have select := decode_bs s.now.bsKind s.now.bsBusy s.input.abort (s.now.bsRem == 1#16)
  refine ⟨fun idle => ?_, rfl, fun busy abort => ?_, rfl, fun busy more abort => ?_, rfl, fun busy last abort kind => ?_,
    rfl, fun busy last abort kind => ?_, rfl⟩
  all_goals rw [bsOsv, select]
  · simp [idle]
  · simp [busy, abort]
  · simp [busy, abort, more]
  · simp [busy, abort, last, kind]
  · simp [busy, abort, last, kind]

/-- Settles O19: the selection by the rows of POLL, and each operation by its meaning. -/
theorem pollTimerOperations : Obligations.PollTimerOperations := by
  intro s
  have select := decode_poll s.cfg.mode (s.now.pollCnt == s.cfg.pollPeriod - 1#32)
  refine ⟨fun async => ?_, rfl, fun sync more => ?_, rfl, fun sync last => ?_, rfl⟩
  all_goals rw [pollOsv, select]
  · simp [async]
  · simp [sync, more]
  · simp [sync, last]

/-- A phase with bit 3 set matches the row of SSR_WAIT, whatever its low bits are (30_encoding.md R112). -/
theorem decode_ssr_wait (ph : BitVec 4) (full strobe : Bool) (h : ph.getLsbD 3 = true) :
    decode (.osv (mkOsv .ssr ph (nibble full strobe false false))) = .ok .ssrWait := by
  revert ph full strobe
  decide

theorem decode_ssr_abort (ph : BitVec 4) (full strobe fire : Bool) :
    decode (.osv (mkOsv .ssr ph (nibble full strobe true fire))) = .ok .ssrAbort := by
  revert ph full strobe fire
  decide

/-- Settles O20: the selection by the rows of SSR, and each operation by its meaning. -/
theorem syncReaderOperations : Obligations.SyncReaderOperations := by
  intro s
  have select (h : WfPhase s.now) :=
    decode_ssr s.now.ssrPhase (s.now.ssrBit.toNat == s.cfg.w) s.sig.pollStrobe s.input.abort s.sig.bsFire h
  refine ⟨fun abort => ?_, rfl, fun abort phase strobe => ?_, rfl, fun abort phase strobe => ?_, rfl,
    fun abort phase fire => ?_, rfl, fun abort phase fire => ?_, rfl, fun abort phase fire => ?_, rfl,
    fun abort phase fire => ?_, fun full => if_pos full, fun more => if_neg more, fun abort phase fire => ?_, rfl⟩
  all_goals rw [ssrOsv]
  · rw [abort]
    exact decode_ssr_abort _ _ _ _
  · rw [select (.inl phase)]
    simp [abort, phase, strobe]
  · rw [select (.inl phase)]
    simp [abort, phase, strobe]
  · rw [abort, fire]
    exact decode_ssr_wait _ _ _ phase
  · rw [select (.inr (.inl phase))]
    simp [abort, phase, fire, phIdle, phLatch]
  · have known : WfPhase s.now := by
      rcases phase with settle | low
      · exact .inr (.inr (.inl settle))
      · exact .inr (.inr (.inr (.inr (.inl low))))
    rw [select known]
    rcases phase with settle | low
    · simp [abort, settle, fire, phIdle, phLatch, phClkHigh, phClkTail]
    · simp [abort, low, fire, phIdle, phLatch, phClkHigh, phClkTail]
  · rw [select (.inr (.inr (.inr (.inl phase))))]
    simp [abort, phase, fire, phIdle, phLatch, phClkHigh]
  · rw [select (.inr (.inr (.inr (.inr (.inr phase)))))]
    simp [abort, phase, fire, phIdle, phLatch, phClkHigh, phClkTail]

/-- The start edge as a formula over the direction, the level before and the level (42_async_reader.md R180). -/
theorem startEdgeSeen_eq (c : Cfg) (prev level : Bool) :
    startEdgeSeen c prev level = (decide (c.mode = .async) &&
      ((decide (c.startEdge = .falling) && prev && !level) || (decide (c.startEdge = .rising) && !prev && level))) := by
  unfold startEdgeSeen
  cases c.mode <;> cases c.startEdge <;> simp

/-- Settles O21: the selection by the rows of EDGE, and each operation by its meaning. -/
theorem edgeDetectorOperations : Obligations.EdgeDetectorOperations := by
  intro s
  have select := decode_edge s.now.edgePrev (modeBit s.cfg.mode) (edgeBit s.cfg.startEdge) s.input.dataIn s.input.dataFault
  refine ⟨fun fault => ?_, rfl, fun ok => ?_, ?_⟩
  · rw [edgeOsv, select, if_pos fault]
  · rw [edgeOsv, select, ok]
    rfl
  · rw [← startEdgeSeen_eq]
    rfl

/-- Settles O22: the selection by the rows of AFR, and each operation by its meaning. -/
theorem asyncReaderOperations : Obligations.AsyncReaderOperations := by
  intro s
  have select := decode_afr s.now.afrSampling (s.now.afrBit.toNat == s.cfg.w - 1) s.sig.startEdge s.input.abort s.sig.bsFire
  refine ⟨fun abort => ?_, rfl, fun abort idle edge => ?_, rfl, fun abort idle edge => ?_, rfl,
    fun abort sampling fire edge => ?_, rfl, fun abort sampling fire edge => ?_, rfl,
    fun abort sampling fire more => ?_, rfl, fun abort sampling fire last => ?_, rfl⟩
  all_goals rw [afrOsv, select]
  · simp [abort]
  · simp [abort, idle, edge]
  · simp [abort, idle, edge]
  · simp [abort, sampling, fire, edge]
  · simp [abort, sampling, fire, edge]
  · have notLast : s.now.afrBit.toNat ≠ s.cfg.w - 1 := more
    simp [abort, sampling, fire, notLast]
  · have atLast : s.now.afrBit.toNat = s.cfg.w - 1 := last
    simp [abort, sampling, fire, atLast]

/-- Settles O23: the selection by the rows of HAND, and each operation by its meaning. -/
theorem handoffOperations : Obligations.HandoffOperations := by
  rintro s taken rfl
  rw [← take_eq_decide]
  have select := decode_hand s.now.handFull (take s) s.sig.write (take_full s)
  refine ⟨fun quiet held => ?_, rfl, fun empty write held => ?_, rfl, fun quiet taken => ?_, rfl,
    fun full write held => ?_, rfl, fun write taken => ?_, rfl⟩
  all_goals rw [handOsv, select]
  · simp [quiet, held]
  · simp [empty, write, held]
  · simp [quiet, taken]
  · simp [full, write, held]
  · simp [write, taken]

/-- In EMIT the vector's bits say whether the entry's button changed and whether it is the last entry. -/
theorem emit_bits {s : State} (emit : s.now.sdState = sdsEmit) :
    chgHit s = s.now.sdChg.getLsbD (s.cfg.entry s.now.sdPos.toNat).idx.toNat ∧
      lastEntry s = decide (s.now.sdPos.toNat + 1 = s.cfg.len) := by
  refine ⟨by simp [chgHit, emit], ?_⟩
  rw [lastEntry, emit, beq_self_eq_true, Bool.true_and, beq_eq_decide]

/-- In EMIT the advance goes on to SYNC from the last entry (43_state_differ.md R224, R225). -/
theorem sdAdvance_of_emit {s : State} (emit : s.now.sdState = sdsEmit) (trace : List (Nat × EventWord)) :
    sdAdvance { s with trace := trace } = { s with
      nxt := { s.nxt with
        sdPos := s.now.sdPos + 1#5
        sdState := if s.now.sdPos.toNat + 1 = s.cfg.mapLen.toNat then 0b10#2 else s.nxt.sdState }
      trace := trace } := by
  obtain ⟨-, last⟩ := emit_bits (s := { s with trace := trace }) emit
  simp only [sdAdvance, last, decide_eq_true_eq]
  rfl

/-- Settles O24: the selection by the rows of SD, and each operation by its meaning. -/
theorem stateDifferOperations : Obligations.StateDifferOperations := by
  rintro s e rfl
  have select (h : s.now.sdState ≠ 0b11#2) :=
    decode_sd s.now.sdState (lastEntry s) s.input.sinkReady (chgHit s) s.now.handFull h
  refine ⟨fun idle empty => ?_, rfl, fun idle full => ?_, rfl, fun emit noChange => ?_,
    fun emit => congrArg _ (sdAdvance_of_emit emit s.trace), fun emit change ready => ?_,
    fun emit => congrArg _ (sdAdvance_of_emit emit _), fun emit change stalled => ?_, rfl, fun sync ready => ?_, rfl,
    fun sync stalled => ?_, rfl⟩
  all_goals rw [sdOsv]
  · rw [select (by rw [idle]; decide)]
    simp [idle, empty]
  · rw [select (by rw [idle]; decide)]
    simp [idle, full]
  · rw [select (by rw [emit]; decide), (emit_bits emit).1, noChange]
    simp [emit]
  · rw [select (by rw [emit]; decide), (emit_bits emit).1, change]
    simp [emit, ready]
  · rw [select (by rw [emit]; decide), (emit_bits emit).1, change]
    simp [emit, stalled]
  · rw [select (by rw [sync]; decide)]
    simp [sync, ready, sdsIdle, sdsEmit]
  · rw [select (by rw [sync]; decide)]
    simp [sync, stalled, sdsIdle, sdsEmit]

/-- Settles O25: the offer of a word transfers it or does nothing. -/
theorem eventWordRowsTransfer : Obligations.EventWordRowsTransfer := by
  intro s pressed id
  have portOpen_iff : portOpen s = true ↔ s.input.rst = false ∧ s.cfgIn.Valid s.plat := by
    simp [portOpen]
  have transfers (h : portOpen s = true ∧ s.input.sinkReady = true) (w : EventWord) : offer w s = transfer w s := by
    rw [offer, h.1, h.2]
    rfl
  have keeps (h : ¬ (portOpen s = true ∧ s.input.sinkReady = true)) (w : EventWord) : offer w s = s := by
    rw [offer, if_neg (by simpa using h)]
  refine ⟨fun rst valid ready => ?_, fun closed => ?_⟩
  · have port : portOpen s = true ∧ s.input.sinkReady = true := ⟨portOpen_iff.2 ⟨rst, valid⟩, ready⟩
    exact ⟨congrArg _ (transfers port _), congrArg _ (transfers port _)⟩
  · have port : ¬ (portOpen s = true ∧ s.input.sinkReady = true) := by
      rw [portOpen_iff, and_assoc]
      exact closed
    exact ⟨congrArg _ (keeps port _), congrArg _ (keeps port _)⟩

/-- Settles O26: the delays of the SSR from `TU`, those of the AFR from BIT_PERIOD. -/
theorem delayOperandsFit : Obligations.DelayOperandsFit := by
  intro p c inRange valid
  obtain ⟨lh, ls, -, -⟩ := one_le_ssrDelays inRange
  exact ⟨toNat_tLh inRange, toNat_tLs inRange, toNat_tCh inRange, toNat_tCl inRange, lh, ls, toNat_half c,
    one_le_half valid⟩

/-! ### What no operation writes, 20_memory.md R85 -/

/-- `t` reads the same record, parameters, stimulus and tick number as `s`. -/
def SameReads (s t : State) : Prop := t.now = s.now ∧ t.plat = s.plat ∧ t.stim = s.stim ∧ t.tick = s.tick

theorem sameReads_offer (w : EventWord) (s : State) : SameReads s (offer w s) := by
  rcases offer_cases w s with ⟨-, -, sent⟩ | ⟨-, kept⟩
  · rw [sent]
    exact ⟨rfl, rfl, rfl, rfl⟩
  · rw [kept]
    exact ⟨rfl, rfl, rfl, rfl⟩

theorem execTopRun_cases {s t : State} (h : execTopRun s = .next t) : WF s.cfg s.now ∧ t = afterTick s := by
  by_cases hw : WF s.cfg s.now
  · rw [execTopRun_wf s hw] at h
    exact ⟨hw, (Host.Outcome.next.inj h).symm⟩
  · rw [execTopRun, if_neg hw] at h
    cases h

/-- Settles O17: operation by operation. -/
theorem noOperationWritesWhatTheTickReads : Obligations.NoOperationWritesWhatTheTickReads := by
  intro i s t h
  cases i
  case topRun =>
    obtain ⟨-, rfl⟩ := execTopRun_cases h
    exact ⟨afterTick_now s, afterTick_plat s, afterTick_stim s, afterTick_tick s⟩
  case ssrClkEnd =>
    simp only [exec, execSsrClkEnd] at h
    split_ifs at h
    all_goals
      cases h
      exact ⟨rfl, rfl, rfl, rfl⟩
  case evReport pressed id =>
    cases h
    exact sameReads_offer _ s
  case evSync =>
    cases h
    exact sameReads_offer _ s
  all_goals
    cases h
    exact ⟨rfl, rfl, rfl, rfl⟩

/-! ### TOP_RUN, 44_top_control.md R255 -/

/-- Each unit performs with `exec` the operation that its vector selects (30_encoding.md R100): the vector decodes to an
operation of the unit, and the unit's dispatch runs that operation's meaning. -/
theorem runUnit_eq_exec {u : UnitName} {s : State} (hu : u ≠ .top) (hw : WF s.cfg s.now) :
    ∃ i, selectedOp u s = some i ∧ runUnit u s = exec i s := by
  cases u with
  | top => exact absurd rfl hu
  | bs =>
    have decoded : decode (.osv (bsOsv s)) = _ := decode_bs _ _ _ _
    simp only [selectedOp, osvOf, runUnit, runBs, decoded]
    split_ifs <;> exact ⟨_, rfl, rfl⟩
  | poll =>
    have decoded : decode (.osv (pollOsv s)) = _ := decode_poll _ _
    simp only [selectedOp, osvOf, runUnit, runPoll, decoded]
    split_ifs <;> exact ⟨_, rfl, rfl⟩
  | ssr =>
    have decoded : decode (.osv (ssrOsv s)) = _ := decode_ssr _ _ _ _ _ hw.phase
    simp only [selectedOp, osvOf, runUnit, runSsr, decoded]
    split_ifs <;> exact ⟨_, rfl, rfl⟩
  | edge =>
    have decoded : decode (.osv (edgeOsv s)) = _ := decode_edge _ _ _ _ _
    simp only [selectedOp, osvOf, runUnit, runEdge, decoded]
    split_ifs <;> exact ⟨_, rfl, rfl⟩
  | afr =>
    have decoded : decode (.osv (afrOsv s)) = _ := decode_afr _ _ _ _ _
    simp only [selectedOp, osvOf, runUnit, runAfr, decoded]
    split_ifs <;> exact ⟨_, rfl, rfl⟩
  | hand =>
    have decoded : decode (.osv (handOsv s)) = _ := decode_hand _ _ _ (take_full s)
    simp only [selectedOp, osvOf, runUnit, runHand, decoded]
    split_ifs <;> exact ⟨_, rfl, rfl⟩
  | sd =>
    have decoded : decode (.osv (sdOsv s)) = _ := decode_sd _ _ _ _ _ hw.sdState
    simp only [selectedOp, osvOf, runUnit, runSd, decoded]
    split_ifs <;> exact ⟨_, rfl, rfl⟩

/-- No unit writes what the well-formedness of the tick's record depends on. -/
theorem runUnit_keeps_now {u : UnitName} {s t : State} (hw : WF s.cfg s.now) (h : runUnit u s = .next t) :
    t.now = s.now ∧ t.cfg = s.cfg := by
  cases u with
  | top => cases h; exact ⟨rfl, rfl⟩
  | bs => rw [runUnit, runBs_eq] at h; cases h; exact ⟨rfl, rfl⟩
  | poll => rw [runUnit, runPoll_eq] at h; cases h; exact ⟨rfl, rfl⟩
  | ssr => rw [runUnit, runSsr_eq s hw.phase] at h; cases h; exact ⟨afterSsr_now s, afterSsr_cfg s⟩
  | edge => rw [runUnit, runEdge_eq] at h; cases h; exact ⟨rfl, rfl⟩
  | afr => rw [runUnit, runAfr_eq] at h; cases h; exact ⟨afterAfr_now s, afterAfr_cfg s⟩
  | hand => rw [runUnit, runHand_eq] at h; cases h; exact ⟨afterHand_now s, afterHand_cfg s⟩
  | sd => rw [runUnit, runSd_eq s hw.sdState] at h; cases h; exact ⟨afterSd_now s, afterSd_cfg s⟩

/-- The units in order, each run by `exec`, do what `runUnits` does. -/
theorem performUnits_eq_runUnits {us : List UnitName} (hus : .top ∉ us) {s : State} (hw : WF s.cfg s.now) :
    performUnits us s = runUnits us s := by
  induction us generalizing s with
  | nil => rfl
  | cons u us ih =>
    rw [List.mem_cons, not_or] at hus
    obtain ⟨notTop, rest⟩ := hus
    obtain ⟨i, selected, run⟩ := runUnit_eq_exec (Ne.symm notTop) hw
    simp only [performUnits, runUnits, selected, ← run]
    cases out : runUnit u s with
    | next t =>
      obtain ⟨now, cfg⟩ := runUnit_keeps_now hw out
      exact ih rest (by rwa [cfg, now])
    | fault f => rfl
    | refused r => rfl

/-- Settles O14: TOP_RUN's check passes, and its units are the seven operations in order. -/
theorem topRunPerformsEveryUnit : Obligations.TopRunPerformsEveryUnit := by
  intro s hw
  have performed : performUnits tickUnits (beginTick s) = .next (afterTick s) :=
    (performUnits_eq_runUnits (us := tickUnits) (s := beginTick s) (by decide) hw).trans (runUnits_tick s hw)
  exact ⟨afterTick s, execTopRun_wf s hw, performed, afterTick_now s, afterTick_cfg s, afterTick_plat s, afterTick_stim s,
    afterTick_tick s⟩

/-- SD drives no wire. -/
theorem afterSd_sig (s : State) : (afterSd s).sig = s.sig := by
  unfold afterSd
  split_ifs <;> rfl

/-- The offer to the handoff after the tick is the one in front of HAND. -/
theorem tick_offer (s : State) :
    (afterTick s).sig.write = (beforeHand s).sig.write ∧ (afterTick s).sig.hwWord = (beforeHand s).sig.hwWord := by
  rw [afterTick_eq, afterSd_sig]
  exact ⟨afterHand_sig_write _, afterHand_sig_hwWord _⟩

/-- `start_edge` by its formula (44_top_control.md R255 step 4). -/
theorem seesEdge_eq (s : State) :
    seesEdge s = (decide (s.cfg.mode = .async) && !s.input.dataFault &&
      ((decide (s.cfg.startEdge = .falling) && s.now.edgePrev && !s.input.dataIn) ||
        (decide (s.cfg.startEdge = .rising) && !s.now.edgePrev && s.input.dataIn))) := by
  rw [seesEdge, startEdgeSeen_eq]
  cases s.input.dataFault <;> simp

/-- Settles O16: each wire by its unit. -/
theorem wiresOfATickFollowTheirFormulas : Obligations.WiresOfATickFollowTheirFormulas := by
  intro s hw
  obtain ⟨write, word⟩ := tick_offer s
  refine ⟨afterTick s, execTopRun_wf s hw, tick_bsFire s, fun fire kind => ?_, ?_, (tick_startEdge s).trans (seesEdge_eq s),
    ?_, fun w completed => ?_⟩
  · rw [tick_bsFire] at fire
    rw [tick_bsVal, sampled, if_pos ⟨fire, kind⟩]
    rfl
  · rw [tick_pollStrobe, strobes, beq_eq_decide]
  · rw [write, ← beforeHand_word hw]
    cases (beforeHand s).sig.write <;> rfl
  · rw [word]
    exact (wires_of_completed hw completed).2

end Sys2Proof.Machine
end

section
/-! PROOFS. The step by the kind of its tick (44_top_control.md R251 to R255, R259), the invariants that every step keeps, and
what a tick and a run expose (R252, R257). -/

namespace Sys2Proof.Machine

/-! ### The step, 44_top_control.md R253, R254, R259 -/

/-- Settles O8: `S_rst(CFG)` has every register at rest. -/
theorem resetMeetsTheInvariants : Obligations.ResetMeetsTheInvariants :=
  ⟨wf_reset, fun _ c => ⟨wf_reset c, ⟨rfl, rfl⟩, fun sync => absurd sync Bool.false_ne_true, fun _ => rfl⟩, rfl⟩

/-- Settles O9: what TOP's vector selects, and the tick boundary after it. -/
theorem stepRunsTheSelectedOperation : Obligations.StepRunsTheSelectedOperation := by
  intro s i accepted decoded
  have step := step_accepted s accepted i decoded
  refine ⟨?_, fun t next => ?_, fun f fault => ?_⟩
  · rw [decode_topOsv] at decoded
    exact (Except.ok.inj decoded).symm
  · rw [step, next]
    rfl
  · rw [step, fault]

/-- Settles O10: the two refusals, and the inert tick of an invalid record. -/
theorem stepRefusesBadParametersAndRecordChanges : Obligations.StepRefusesBadParametersAndRecordChanges :=
  fun s => ⟨step_outOfRange, step_cfgChanged, fun inRange rst held invalid => step_inert s ⟨inRange, fun _ => held⟩ rst invalid⟩

/-- Settles O11: both operations by their meaning. -/
theorem topResetAndInertWriteTheResetRecord : Obligations.TopResetAndInertWriteTheResetRecord :=
  fun _ => ⟨rfl, rfl⟩

/-- Settles O12: TOP_RESET runs, and the port is closed with `rst` = 1. -/
theorem resetTickResetsEverything : Obligations.ResetTickResetsEverything := by
  intro s inRange rst
  exact ⟨step_reset s inRange rst, evValid_of_portOpen_eq_false (by simp [portOpen, rst])⟩

/-- Settles O13: TOP_INERT runs, the port is closed by the record, and the record's check is the status. -/
theorem inertTickStaysAtReset : Obligations.InertTickStaysAtReset := by
  intro s accepted rst invalid
  have check : cfgValid s.plat s.cfg = false := Bool.eq_false_of_not_eq_true invalid
  have closed : portOpen s = false := by rw [portOpen_accepted accepted, check, Bool.and_false]
  refine ⟨step_inert s accepted rst invalid, evValid_of_portOpen_eq_false closed, ?_⟩
  rw [portLevels, status, accepted.2 rst, check]
  rfl

/-- Settles O15: TOP_RUN's check fails, at `exec` and at the step. -/
theorem illFormedRecordFaults : Obligations.IllFormedRecordFaults :=
  fun s illFormed => ⟨if_neg illFormed, fun accepted rst valid => step_faults s accepted rst valid illFormed⟩

/-! ### What every step keeps -/

/-- Settles O27: every step that completes leaves a well-formed record. -/
theorem stepKeepsWf : Obligations.StepKeepsWf :=
  fun _ _ _ => wf_of_step

theorem step_settled {s t : State} (h : step s = .next t) : t.Settled := by
  obtain ⟨-, ⟨-, rfl⟩ | ⟨-, -, rfl⟩ | ⟨-, rfl⟩⟩ := step_cases h
  all_goals exact ⟨rfl, rfl⟩

/-- SYNC moves only when the AFR completes a frame under HANDSHAKE, and then the mode is ASYNC. -/
theorem syncLineOk_step {s t : State} (ok : s.SyncLineOk) (h : step s = .next t) : t.SyncLineOk := by
  obtain ⟨-, ⟨-, rfl⟩ | ⟨-, -, rfl⟩ | ⟨⟨-, -, -, hw⟩, rfl⟩⟩ := step_cases h
  · exact fun sync => absurd sync Bool.false_ne_true
  · exact fun sync => absurd sync Bool.false_ne_true
  · intro sync
    rw [tickBoundary_now, syncOut_tick hw] at sync
    rw [tickBoundary_cfg, afterTick_cfg]
    cases before : s.now.syncOut with
    | true => exact ok before
    | false =>
      rw [before, Bool.false_xor, Bool.and_eq_true, Bool.and_eq_true] at sync
      obtain ⟨⟨handshake, sampling⟩, -⟩ := sync
      exact ⟨async_of_sampling hw sampling, handshake⟩

theorem inertAtRest_step {s t : State} (h : step s = .next t) : t.InertAtRest := by
  obtain ⟨-, ⟨-, rfl⟩ | ⟨-, -, rfl⟩ | ⟨⟨-, -, valid, -⟩, rfl⟩⟩ := step_cases h
  · exact fun _ => rfl
  · exact fun _ => rfl
  · exact fun invalid => absurd (by simpa using valid) invalid

/-- Settles O28. -/
theorem stepKeepsTheLineInvariants : Obligations.StepKeepsTheLineInvariants :=
  fun _ _ h => ⟨step_settled h, fun ok => syncLineOk_step ok h, fun _ => inertAtRest_step h⟩

/-- Settles O29: by the kind of the tick. -/
theorem wellFormedTicksNeverFault : Obligations.WellFormedTicksNeverFault := by
  intro s accepted hw
  cases rst : s.input.rst with
  | true => exact ⟨_, step_reset s accepted.1 rst⟩
  | false =>
    by_cases valid : s.cfg.Valid s.plat
    · exact ⟨_, step_running s ⟨accepted, rst, valid, hw⟩⟩
    · exact ⟨_, step_inert s accepted rst valid⟩

/-! ### The pins and the outputs, 10_state.md R34, R42 to R44 -/

/-- Settles O31: in ASYNC mode the SSR is in IDLE, and SYNC is at rest by its invariant. -/
theorem pinsFollowTheMode : Obligations.PinsFollowTheMode := by
  refine ⟨⟨rfl, rfl, rfl, rfl, rfl⟩, fun s hw ok => ⟨fun async => ssrPins_low_of_phIdle (hw.mode.2 async).1, fun unused => ?_⟩⟩
  refine Bool.eq_false_of_not_eq_true fun sync => ?_
  obtain ⟨async, handshake⟩ := ok sync
  rcases unused with mode | none
  · rw [async] at mode
    cases mode
  · exact Bool.false_ne_true (none.symm.trans handshake)

theorem outputs_of_view_none {s : State} (h : tickView s = none) : outputs s = none := by
  rw [outputs, h]
  rfl

/-- Settles O32: a tick's view by its outcome, and its outputs are the port levels. -/
theorem outputsFollowTheRegisters : Obligations.OutputsFollowTheRegisters := by
  intro s
  refine ⟨fun t next => ⟨portLevels s, tickView_next next, (outputs_eq_some_iff s _).2 ⟨⟨t, next⟩, rfl⟩,
    portLevels_latchOut s, portLevels_clockOut s, rfl, rfl, rfl, ?_⟩, fun f fault => ?_, fun r refused => ?_⟩
  · simp [portLevels, status]
  · exact ⟨tickView_fault fault, outputs_of_view_none (tickView_fault fault)⟩
  · exact ⟨tickView_refused refused, outputs_of_view_none (tickView_refused refused)⟩

/-! ### A run, 44_top_control.md R257 -/

/-- The run of `n` ticks from `s` exposes the outputs of tick `k`. -/
def ExposesTick (n : Nat) (s : State) (k : Nat) : Prop :=
  ∃ u o, Host.Core.run Sys2Proof.core k s = .next u ∧ outputs u = some o ∧ (runView n s).outputs[k]? = some o

theorem exposesTick_zero {n : Nat} {s t : State} (h : step s = .next t) : ExposesTick (n + 1) s 0 :=
  ⟨s, portLevels s, rfl, (outputs_eq_some_iff s _).2 ⟨⟨t, h⟩, rfl⟩, by rw [runView_next h]; rfl⟩

theorem exposesTick_succ {n k : Nat} {s t : State} (h : step s = .next t) (later : ExposesTick n t k) :
    ExposesTick (n + 1) s (k + 1) := by
  obtain ⟨u, o, run, out, at_⟩ := later
  exact ⟨u, o, (run_succ h).trans run, out, by rw [runView_next h]; exact at_⟩

/-- A run that goes on after its first tick exposes that tick and then what the rest exposes. -/
theorem exposesTick_cons {n m : Nat} {s t : State} (h : step s = .next t) (rest : ∀ k < m, ExposesTick n t k) :
    ∀ k < m + 1, ExposesTick (n + 1) s k := by
  intro k hk
  cases k with
  | zero => exact exposesTick_zero h
  | succ k => exact exposesTick_succ h (rest k (Nat.lt_of_succ_lt_succ hk))

theorem run_fault {n : Nat} {s : State} {f : Fault} (h : step s = .fault f) :
    Host.Core.run Sys2Proof.core (n + 1) s = .fault f := by
  have fault : Sys2Proof.core.step s = .fault f := h
  simp only [Host.Core.run, fault]

theorem run_refused {n : Nat} {s : State} {r : Refusal} (h : step s = .refused r) :
    Host.Core.run Sys2Proof.core (n + 1) s = .refused r := by
  have refused : Sys2Proof.core.step s = .refused r := h
  simp only [Host.Core.run, refused]

/-- A run's view ends as the run does. -/
theorem runView_final (n : Nat) (s : State) : (runView n s).final = Host.Core.run Sys2Proof.core n s := by
  induction n generalizing s with
  | zero => rfl
  | succ n ih =>
    cases h : step s with
    | next t => rw [runView_next h, run_succ h]; exact ih t
    | fault f => rw [runView_fault h, run_fault h]; rfl
    | refused r => rw [runView_refused h, run_refused h]; rfl

/-- A run that ends in a state exposes each of its ticks, and its trace is what the sink trace gained. -/
theorem runView_of_next {n : Nat} {s t : State} (h : Host.Core.run Sys2Proof.core n s = .next t) :
    (runView n s).outputs.length = n ∧ t.trace = s.trace ++ (runView n s).trace ∧ ∀ k < n, ExposesTick n s k := by
  induction n generalizing s with
  | zero =>
    cases h
    exact ⟨rfl, (List.append_nil _).symm, fun k hk => absurd hk (Nat.not_lt_zero k)⟩
  | succ n ih =>
    obtain ⟨u, first, rest⟩ := exists_step_of_run h
    obtain ⟨length, trace, exposes⟩ := ih rest
    refine ⟨?_, ?_, exposesTick_cons first exposes⟩
    · rw [runView_next first, List.length_cons, length]
    · rw [runView_next first, trace, trace_of_step first, transferred_entry, List.append_assoc]

/-- A run that ends in a fault exposes each tick before the faulting one, and nothing of that one. -/
theorem runView_of_fault {n : Nat} {s : State} {f : Fault} (h : Host.Core.run Sys2Proof.core n s = .fault f) :
    ∃ k u, k < n ∧ Host.Core.run Sys2Proof.core k s = .next u ∧ step u = .fault f ∧ outputs u = none ∧
      (runView n s).outputs.length = k ∧ ∀ j < k, ExposesTick n s j := by
  induction n generalizing s with
  | zero => cases h
  | succ n ih =>
    cases first : step s with
    | next t =>
      rw [run_succ first] at h
      obtain ⟨k, u, below, run, fault, none, length, exposes⟩ := ih h
      refine ⟨k + 1, u, Nat.succ_lt_succ below, (run_succ first).trans run, fault, none, ?_,
        exposesTick_cons first exposes⟩
      rw [runView_next first, List.length_cons, length]
    | fault g =>
      rw [run_fault first] at h
      cases h
      exact ⟨0, s, Nat.succ_pos n, rfl, first, outputs_of_view_none (tickView_fault first), by rw [runView_fault first]; rfl,
        fun j hj => absurd hj (Nat.not_lt_zero j)⟩
    | refused r =>
      rw [run_refused first] at h
      cases h

/-- Settles O58: the view's end, and its ticks by the end of the run. -/
theorem runYieldsWhatItsTicksExpose : Obligations.RunYieldsWhatItsTicksExpose :=
  fun n s => ⟨runView_final n s, fun _ => runView_of_next, fun _ => runView_of_fault⟩

end Sys2Proof.Machine
end

section
/-! PROOFS. The exceptional conditions of a tick (60_exceptions.md R280): the operations that a running tick performs, what
each of them meets, and the listing of the tick. Last, the difference function of a word with itself (43_state_differ.md
R216, R230). -/

namespace Sys2Proof.Machine

/-! ### The operations of a running tick, 44_top_control.md R255 -/

/-- The operation of BS in the tick. -/
def bsOp (s : State) : Instr :=
  if !s.now.bsBusy then .bsIdle else if s.input.abort then .bsCancel else if !(s.now.bsRem == 1#16) then .bsCount
  else if s.now.bsKind = .delay then .bsFireDelay else .bsFireSample

/-- The operation of POLL in the tick. -/
def pollOp (s : State) : Instr :=
  if s.cfg.mode = .async then .pollOff else if s.now.pollCnt == s.cfg.pollPeriod - 1#32 then .pollStrobe else .pollCount

/-- The operation of SSR in the tick. -/
def ssrOp (s : State) : Instr :=
  if s.input.abort then .ssrAbort
  else if s.now.ssrPhase = phIdle then (if strobes s then .ssrStart else .ssrIdleHold)
  else if !fires s then .ssrWait
  else if s.now.ssrPhase = phLatch then .ssrLatchEnd
  else if s.now.ssrPhase = phClkHigh then .ssrClkEnd
  else if s.now.ssrPhase = phClkTail then .ssrFinish
  else .ssrSample

/-- The operation of EDGE in the tick. -/
def edgeOp (s : State) : Instr := if s.input.dataFault then .edgeHold else .edgeTrack

/-- The operation of AFR in the tick. -/
def afrOp (s : State) : Instr :=
  if s.input.abort then .afrAbort
  else if !s.now.afrSampling then (if seesEdge s then .afrStart else .afrIdleHold)
  else if !fires s then (if seesEdge s then .afrEdgeIgnored else .afrWait)
  else if s.now.afrBit.toNat == s.cfg.w - 1 then .afrFinish else .afrSample

/-- The operation of HAND in the tick. -/
def handOp (s : State) : Instr :=
  if take s then (if (completedWord s).isSome then .handTakeWrite else .handTake)
  else if !(completedWord s).isSome then .handNop else if s.now.handFull then .handOverrun else .handWrite

/-- The operation of SD in the tick. -/
def sdOp (s : State) : Instr :=
  if s.now.sdState = sdsIdle then (if s.now.handFull then .sdTake else .sdIdleHold)
  else if s.now.sdState = sdsEmit then
    (if !chgHit s then .sdSkip else if s.input.sinkReady then .sdReport else .sdReportWait)
  else if s.input.sinkReady then .sdSync else .sdSyncWait

theorem unitOps_cons {u : UnitName} {us : List UnitName} {x y : State} {i : Instr}
    (decoded : decode (.osv (osvOf u x)) = .ok i) (run : runUnit u x = .next y) :
    unitOps (u :: us) x = i :: unitOps us y := by
  simp only [unitOps, decoded, run]

section
variable (s : State)

theorem decode_bsOp : decode (.osv (osvOf .bs (beginTick s))) = .ok (bsOp s) := decode_bs _ _ _ _

theorem decode_pollOp : decode (.osv (osvOf .poll (afterBs (beginTick s)))) = .ok (pollOp s) := decode_poll _ _

theorem decode_ssrOp (hw : WF s.cfg s.now) : decode (.osv (osvOf .ssr (beforeSsr s))) = .ok (ssrOp s) :=
  decode_ssr _ _ _ _ _ hw.phase

theorem decode_edgeOp : decode (.osv (osvOf .edge (afterSsr (beforeSsr s)))) = .ok (edgeOp s) := by
  have decoded : decode (.osv (edgeOsv (afterSsr (beforeSsr s)))) = _ := decode_edge _ _ _ _ _
  rw [osvOf, decoded, afterSsr_input]
  rfl

theorem decode_afrOp : decode (.osv (osvOf .afr (beforeAfr s))) = .ok (afrOp s) := by
  have decoded : decode (.osv (afrOsv (beforeAfr s))) = _ := decode_afr _ _ _ _ _
  rw [osvOf, decoded, beforeAfr_now, beforeAfr_cfg, beforeAfr_input, beforeAfr_bsFire, beforeAfr_startEdge]
  rfl

theorem decode_handOp (hw : WF s.cfg s.now) : decode (.osv (osvOf .hand (beforeHand s))) = .ok (handOp s) := by
  have decoded : decode (.osv (handOsv (beforeHand s))) = _ := decode_hand _ _ _ (take_full _)
  have word : (beforeHand s).sig.write = (completedWord s).isSome := by
    rw [← beforeHand_word hw]
    cases (beforeHand s).sig.write <;> rfl
  rw [osvOf, decoded, take_congr (s := s) (beforeHand_now s), beforeHand_now, word]
  rfl

theorem decode_sdOp (hw : WF s.cfg s.now) : decode (.osv (osvOf .sd (afterHand (beforeHand s)))) = .ok (sdOp s) := by
  have now : (afterHand (beforeHand s)).now = s.now := by simp
  have cfg : (afterHand (beforeHand s)).cfg = s.cfg := by simp
  have decoded : decode (.osv (sdOsv (afterHand (beforeHand s)))) = _ :=
    decode_sd _ _ _ _ _ (by rw [now]; exact hw.sdState)
  rw [osvOf, decoded, chgHit_congr now cfg, now, afterHand_input, beforeHand_input]
  rfl

/-- Each unit of a well-formed tick performs its operation in turn. -/
theorem unitOps_tick (hw : WF s.cfg s.now) :
    unitOps tickUnits (beginTick s) = [bsOp s, pollOp s, ssrOp s, edgeOp s, afrOp s, handOp s, sdOp s] := by
  have phase : WfPhase (beforeSsr s).now := hw.phase
  have sdState : WfSdState (afterHand (beforeHand s)).now := by simpa using hw.sdState
  have bs : runUnit .bs (beginTick s) = .next (afterBs (beginTick s)) := runBs_eq _
  have poll : runUnit .poll (afterBs (beginTick s)) = .next (beforeSsr s) := runPoll_eq _
  have ssr : runUnit .ssr (beforeSsr s) = .next (afterSsr (beforeSsr s)) := runSsr_eq _ phase
  have edge : runUnit .edge (afterSsr (beforeSsr s)) = .next (beforeAfr s) := runEdge_eq _
  have afr : runUnit .afr (beforeAfr s) = .next (beforeHand s) := runAfr_eq _
  have hand : runUnit .hand (beforeHand s) = .next (afterHand (beforeHand s)) := runHand_eq _
  have sd : runUnit .sd (afterHand (beforeHand s)) = .next (afterSd (afterHand (beforeHand s))) := runSd_eq _ sdState
  rw [tickUnits, unitOps_cons (decode_bsOp s) bs, unitOps_cons (decode_pollOp s) poll,
    unitOps_cons (decode_ssrOp s hw) ssr, unitOps_cons (decode_edgeOp s) edge, unitOps_cons (decode_afrOp s) afr,
    unitOps_cons (decode_handOp s hw) hand, unitOps_cons (decode_sdOp s hw) sd]
  rfl

end

/-- The operation of each unit in a running tick. -/
def opOf : UnitName → State → Instr
  | .top => fun _ => .topRun
  | .bs => bsOp
  | .poll => pollOp
  | .ssr => ssrOp
  | .edge => edgeOp
  | .afr => afrOp
  | .hand => handOp
  | .sd => sdOp

theorem tickOps_running {s : State} (hr : s.Running) : tickOps s = (UnitName.top :: tickUnits).map (opOf · s) := by
  obtain ⟨accepted, rst, valid, hw⟩ := hr
  rw [tickOps, step_topRun s accepted rst valid]
  exact (if_pos hw).trans (congrArg _ (unitOps_tick s hw))

theorem tickSignals_wf {s : State} (hw : WF s.cfg s.now) : tickSignals s = (afterTick s).sig := by
  rw [tickSignals, runUnits_tick s hw]

/-- The unit whose row an operation is (30_encoding.md R101, R112); an event word is no unit's. -/
def opUnit : Instr → Option UnitName
  | .topReset | .topInert | .topRun => some .top
  | .bsIdle | .bsCancel | .bsCount | .bsFireDelay | .bsFireSample => some .bs
  | .pollOff | .pollCount | .pollStrobe => some .poll
  | .ssrAbort | .ssrIdleHold | .ssrStart | .ssrWait | .ssrLatchEnd | .ssrSample | .ssrClkEnd | .ssrFinish => some .ssr
  | .edgeHold | .edgeTrack => some .edge
  | .afrAbort | .afrIdleHold | .afrStart | .afrWait | .afrEdgeIgnored | .afrSample | .afrFinish => some .afr
  | .handNop | .handWrite | .handTake | .handOverrun | .handTakeWrite => some .hand
  | .sdIdleHold | .sdTake | .sdSkip | .sdReport | .sdReportWait | .sdSync | .sdSyncWait => some .sd
  | .evReport _ _ | .evSync => none

/-- Each unit performs an operation of its own. -/
theorem opUnit_opOf (u : UnitName) (s : State) : opUnit (opOf u s) = some u := by
  cases u with
  | top => rfl
  | bs => simp only [opOf, bsOp]; split_ifs <;> rfl
  | poll => simp only [opOf, pollOp]; split_ifs <;> rfl
  | ssr => simp only [opOf, ssrOp]; split_ifs <;> rfl
  | edge => simp only [opOf, edgeOp]; split_ifs <;> rfl
  | afr => simp only [opOf, afrOp]; split_ifs <;> rfl
  | hand => simp only [opOf, handOp]; split_ifs <;> rfl
  | sd => simp only [opOf, sdOp]; split_ifs <;> rfl

/-- A running tick performs an operation exactly when it is that of its unit. -/
theorem mem_tickOps_iff {s : State} (hr : s.Running) {i : Instr} {u : UnitName} (hu : opUnit i = some u) :
    i ∈ tickOps s ↔ opOf u s = i := by
  rw [tickOps_running hr, List.mem_map]
  constructor
  · rintro ⟨v, -, rfl⟩
    rw [opUnit_opOf] at hu
    rw [Option.some.inj hu]
  · intro same
    exact ⟨u, by cases u <;> decide, same⟩

/-! ### What an operation meets, 60_exceptions.md R280 -/

/-- The operations of an SSR whose frame is in flight. -/
def ssrBusyOps : List Instr := [.ssrWait, .ssrLatchEnd, .ssrSample, .ssrClkEnd, .ssrFinish]

section
variable {i : Instr} {inp : Inputs} {sig : Signals}

theorem dataFault_of_lineFault (h : Cause.lineFault ∈ causesOf i inp sig) : inp.dataFault = true := by
  cases i <;> simp_all [causesOf]

theorem overrun_mem_causesOf : Cause.overrun ∈ causesOf i inp sig ↔ i = .handOverrun := by
  cases i <;> simp [causesOf]

theorem abandon_mem_causesOf :
    Cause.abandon ∈ causesOf i inp sig ↔ i = .bsCancel ∨ i = .ssrAbort ∨ i = .afrAbort := by
  cases i <;> simp [causesOf]

theorem resourceUnavailable_mem_causesOf : Cause.resourceUnavailable ∈ causesOf i inp sig ↔ i = .topInert := by
  cases i <;> simp [causesOf]

theorem unreachable_not_mem_causesOf : Cause.unreachable ∉ causesOf i inp sig := by
  cases i <;> simp [causesOf]

theorem reentrantFrame_mem_causesOf :
    Cause.reentrantFrame ∈ causesOf i inp sig ↔ (i ∈ ssrBusyOps ∧ sig.pollStrobe = true) ∨ i = .afrEdgeIgnored ∨
      ((i = .afrSample ∨ i = .afrFinish) ∧ sig.startEdge = true) := by
  cases i <;> simp [causesOf, ssrBusyOps]

end

/-! ### When an operation is performed -/

theorem opUnit_of_ssrBusyOps {i : Instr} (h : i ∈ ssrBusyOps) : opUnit i = some .ssr := by
  simp only [ssrBusyOps, List.mem_cons, List.not_mem_nil, or_false] at h
  rcases h with rfl | rfl | rfl | rfl | rfl <;> rfl

section
variable {s : State}

theorem bsOp_eq_bsCancel : bsOp s = .bsCancel ↔ s.now.bsBusy = true ∧ s.input.abort = true := by
  unfold bsOp
  split_ifs <;> simp_all

theorem ssrOp_eq_ssrAbort : ssrOp s = .ssrAbort ↔ s.input.abort = true := by
  unfold ssrOp
  split_ifs <;> simp_all

theorem afrOp_eq_afrAbort : afrOp s = .afrAbort ↔ s.input.abort = true := by
  unfold afrOp
  split_ifs <;> simp_all

theorem ssrOp_mem_ssrBusyOps : ssrOp s ∈ ssrBusyOps ↔ s.input.abort = false ∧ s.now.ssrPhase ≠ phIdle := by
  unfold ssrOp ssrBusyOps
  split_ifs <;> simp_all

theorem afrOp_reentrant :
    (afrOp s = .afrEdgeIgnored ∨ ((afrOp s = .afrSample ∨ afrOp s = .afrFinish) ∧ seesEdge s = true)) ↔
      s.input.abort = false ∧ s.now.afrSampling = true ∧ seesEdge s = true := by
  unfold afrOp
  split_ifs <;> simp_all

theorem handOp_eq_handOverrun :
    handOp s = .handOverrun ↔ (completedWord s).isSome = true ∧ s.now.handFull = true ∧ take s = false := by
  unfold handOp
  generalize (completedWord s).isSome = completes
  split_ifs <;> simp_all

theorem edgeOp_eq_edgeHold (fault : s.input.dataFault = true) : edgeOp s = .edgeHold := if_pos fault

/-! ### The conditions of a running tick -/

theorem mem_tickCauses (hr : s.Running) (c : Cause) :
    c ∈ tickCauses s ↔ ∃ i ∈ tickOps s, c ∈ causesOf i s.input (afterTick s).sig := by
  obtain ⟨-, -, -, hw⟩ := hr
  rw [tickCauses, if_neg fun h => h.2 hw, List.mem_dedup, List.mem_flatMap, tickSignals_wf hw]

/-- A condition that one operation alone meets. -/
theorem mem_tickCauses_of_op (hr : s.Running) {c : Cause} {i : Instr} {u : UnitName} (hu : opUnit i = some u)
    (met : ∀ j inp sig, c ∈ causesOf j inp sig ↔ j = i) : c ∈ tickCauses s ↔ opOf u s = i := by
  rw [mem_tickCauses hr, ← mem_tickOps_iff hr hu]
  simp only [met, exists_eq_right]

theorem lineFault_mem_tickCauses (hr : s.Running) : Cause.lineFault ∈ tickCauses s ↔ s.input.dataFault = true := by
  rw [mem_tickCauses hr]
  constructor
  · rintro ⟨i, -, met⟩
    exact dataFault_of_lineFault met
  · intro fault
    exact ⟨.edgeHold, (mem_tickOps_iff hr (u := .edge) rfl).2 (edgeOp_eq_edgeHold fault), by simp [causesOf, fault]⟩

theorem overrun_mem_tickCauses (hr : s.Running) :
    Cause.overrun ∈ tickCauses s ↔ (completedWord s).isSome = true ∧ s.now.handFull = true ∧ take s = false := by
  rw [mem_tickCauses_of_op hr (u := .hand) rfl fun _ _ _ => overrun_mem_causesOf]
  exact handOp_eq_handOverrun

theorem abandon_mem_tickCauses (hr : s.Running) : Cause.abandon ∈ tickCauses s ↔ s.input.abort = true := by
  rw [mem_tickCauses hr]
  constructor
  · rintro ⟨i, performed, met⟩
    rcases abandon_mem_causesOf.1 met with rfl | rfl | rfl
    · exact (bsOp_eq_bsCancel.1 ((mem_tickOps_iff hr (u := .bs) rfl).1 performed)).2
    · exact ssrOp_eq_ssrAbort.1 ((mem_tickOps_iff hr (u := .ssr) rfl).1 performed)
    · exact afrOp_eq_afrAbort.1 ((mem_tickOps_iff hr (u := .afr) rfl).1 performed)
  · intro abort
    exact ⟨.ssrAbort, (mem_tickOps_iff hr (u := .ssr) rfl).2 (ssrOp_eq_ssrAbort.2 abort), abandon_mem_causesOf.2 (.inr (.inl rfl))⟩

theorem resourceUnavailable_not_mem_tickCauses (hr : s.Running) : Cause.resourceUnavailable ∉ tickCauses s := by
  rw [mem_tickCauses_of_op hr (u := .top) rfl fun _ _ _ => resourceUnavailable_mem_causesOf]
  nofun

theorem unreachable_not_mem_tickCauses (hr : s.Running) : Cause.unreachable ∉ tickCauses s := by
  rw [mem_tickCauses hr]
  rintro ⟨i, -, met⟩
  exact unreachable_not_mem_causesOf met

/-- A second frame start in a running tick: a strobe to a busy SSR, or an edge to a sampling AFR. -/
theorem reentrantFrame_mem_tickCauses (hr : s.Running) :
    Cause.reentrantFrame ∈ tickCauses s ↔ s.input.abort = false ∧
      ((s.now.afrSampling = true ∧ seesEdge s = true) ∨ (s.now.ssrPhase ≠ phIdle ∧ strobes s = true)) := by
  have ssr : (∃ i ∈ tickOps s, i ∈ ssrBusyOps) ↔ ssrOp s ∈ ssrBusyOps := by
    constructor
    · rintro ⟨i, performed, busy⟩
      rw [← (mem_tickOps_iff hr (opUnit_of_ssrBusyOps busy)).1 performed] at busy
      exact busy
    · exact fun busy => ⟨ssrOp s, (mem_tickOps_iff hr (opUnit_of_ssrBusyOps busy)).2 rfl, busy⟩
  have ignored : Instr.afrEdgeIgnored ∈ tickOps s ↔ afrOp s = .afrEdgeIgnored := mem_tickOps_iff hr (u := .afr) rfl
  have sample : Instr.afrSample ∈ tickOps s ↔ afrOp s = .afrSample := mem_tickOps_iff hr (u := .afr) rfl
  have finish : Instr.afrFinish ∈ tickOps s ↔ afrOp s = .afrFinish := mem_tickOps_iff hr (u := .afr) rfl
  have afr := afrOp_reentrant (s := s)
  rw [mem_tickCauses hr]
  simp only [reentrantFrame_mem_causesOf, tick_pollStrobe, tick_startEdge]
  calc (∃ i ∈ tickOps s, (i ∈ ssrBusyOps ∧ strobes s = true) ∨ i = .afrEdgeIgnored ∨
          ((i = .afrSample ∨ i = .afrFinish) ∧ seesEdge s = true))
      ↔ ((∃ i ∈ tickOps s, i ∈ ssrBusyOps) ∧ strobes s = true) ∨ Instr.afrEdgeIgnored ∈ tickOps s ∨
          ((Instr.afrSample ∈ tickOps s ∨ Instr.afrFinish ∈ tickOps s) ∧ seesEdge s = true) := by
        constructor
        · rintro ⟨i, performed, ⟨busy, strobe⟩ | rfl | ⟨rfl | rfl, edge⟩⟩
          · exact .inl ⟨⟨i, performed, busy⟩, strobe⟩
          · exact .inr (.inl performed)
          · exact .inr (.inr ⟨.inl performed, edge⟩)
          · exact .inr (.inr ⟨.inr performed, edge⟩)
        · rintro (⟨⟨i, performed, busy⟩, strobe⟩ | performed | ⟨performed | performed, edge⟩)
          · exact ⟨i, performed, .inl ⟨busy, strobe⟩⟩
          · exact ⟨_, performed, .inr (.inl rfl)⟩
          · exact ⟨_, performed, .inr (.inr ⟨.inl rfl, edge⟩)⟩
          · exact ⟨_, performed, .inr (.inr ⟨.inr rfl, edge⟩)⟩
    _ ↔ (ssrOp s ∈ ssrBusyOps ∧ strobes s = true) ∨ (afrOp s = .afrEdgeIgnored ∨
          ((afrOp s = .afrSample ∨ afrOp s = .afrFinish) ∧ seesEdge s = true)) := by
        rw [ssr, ignored, sample, finish]
    _ ↔ _ := by rw [afr, ssrOp_mem_ssrBusyOps, and_assoc, and_or_left, or_comm]

end

/-- Settles O45. -/
theorem lineFaultAndOverrunAreMetAsStated : Obligations.LineFaultAndOverrunAreMetAsStated := by
  intro s running
  refine ⟨lineFault_mem_tickCauses running, (overrun_mem_tickCauses running).trans ?_⟩
  have untaken (full : s.now.handFull = true) : take s = false ↔ s.now.sdState ≠ sdsIdle := by
    simp [take_eq_decide, full]
  exact and_congr_right fun _ => and_congr_right untaken

/-- A busy phase is one with its high bit set (10_state.md R33). -/
theorem busyPhase_iff {r : Regs} (h : WfPhase r) : r.ssrPhase ≠ phIdle ↔ r.ssrPhase.getLsbD 3 = true := by
  rcases h with h | h | h | h | h | h <;> rw [h] <;> decide

/-- A strobe comes in SYNC mode, the only mode in which the SSR is busy. -/
theorem strobe_of_busyPhase {s : State} (hw : WF s.cfg s.now) (busy : s.now.ssrPhase ≠ phIdle) :
    strobes s = true ↔ s.now.pollCnt = s.cfg.pollPeriod - 1#32 := by
  cases hm : s.cfg.mode with
  | sync => simp [strobes, hm]
  | async => exact absurd (hw.mode.2 hm).1 busy

/-- Settles O60: the running tick by its operations, every other tick by TOP's. -/
theorem otherConditionsAreMetAsStated : Obligations.OtherConditionsAreMetAsStated := by
  refine ⟨fun s running => ⟨(reentrantFrame_mem_tickCauses running).trans ?_, abandon_mem_tickCauses running,
    resourceUnavailable_not_mem_tickCauses running, unreachable_not_mem_tickCauses running⟩, fun s rst => ?_,
    fun s accepted rst invalid => ?_, fun s accepted rst valid illFormed => ?_, rfl⟩
  · obtain ⟨-, -, -, hw⟩ := running
    have afr : s.now.afrSampling = true ∧ seesEdge s = true ↔ s.now.afrSampling = true ∧ s.input.dataFault = false ∧
        s.now.edgePrev = decide (s.cfg.startEdge = .falling) ∧ s.input.dataIn = decide (s.cfg.startEdge = .rising) :=
      and_congr_right fun sampling => seesEdge_iff (async_of_sampling hw sampling)
    have ssr : s.now.ssrPhase ≠ phIdle ∧ strobes s = true ↔
        s.now.ssrPhase.getLsbD 3 = true ∧ s.now.pollCnt = s.cfg.pollPeriod - 1#32 := by
      rw [← busyPhase_iff hw.phase]
      exact and_congr_right (strobe_of_busyPhase hw)
    rw [afr, ssr]
  · have top : decode (.osv (topOsv s)) = .ok .topReset := by rw [decode_topOsv, if_pos rst]
    rw [tickCauses, tickOps, top, if_neg (by simp)]
    rfl
  · have top : decode (.osv (topOsv s)) = .ok .topInert := by
      rw [decode_topOsv, accepted.2 rst, rst, if_neg Bool.false_ne_true, if_neg invalid]
    rw [tickCauses, tickOps, top, if_neg (by simp)]
    rfl
  · rw [tickCauses, if_pos ⟨step_topRun s accepted rst valid, illFormed⟩]

/-! ### The difference function, 43_state_differ.md R216, R230 -/

/-- A button that did not change gives no REPORT. -/
theorem reportOf_self (w : ButtonWord) (e : MapEntry) : reportOf w w e = none := by
  simp [reportOf]

theorem reportOf_ne_sync (p w : ButtonWord) (e : MapEntry) : reportOf p w e ≠ some .sync := by
  unfold reportOf
  split_ifs <;> simp

/-- Settles O55: no entry of an unchanged word reports, and the entries give REPORTs alone. -/
theorem diffOfAWordWithItselfIsOneSync : Obligations.DiffOfAWordWithItselfIsOneSync := by
  intro p w c
  refine ⟨?_, ?_, ?_⟩
  · have none : c.activeMap.filterMap (reportOf w w) = [] := by simp [reportOf_self]
    rw [diff, none, List.nil_append]
  · exact List.getLast?_concat
  · have noSync : Event.sync ∉ c.activeMap.filterMap (reportOf p w) := by
      rw [List.mem_filterMap]
      rintro ⟨e, -, sync⟩
      exact reportOf_ne_sync p w e sync
    rw [diff, List.count_append, List.count_eq_zero_of_not_mem noSync]
    rfl

end Sys2Proof.Machine
end
